-- ==== Sys2Proof/Word.lean ====
section
/-! DEFINITION. The register word and the byte (00_scope.md R8 `REG_WIDTH`, R10). -/

namespace Sys2Proof

/-- A 32-bit register value: `REG_WIDTH` = 32 (00_scope.md R8). -/
abbrev Word := BitVec 32

/-- A byte of one of the block's byte arrays, or on the 1-Wire bus. -/
abbrev Byte := BitVec 8

end Sys2Proof
end

