-- ==== Sys2Proof/Config.lean ====
section
/-! DEFINITION. The fixed parameters (00_scope.md R8), the open parameters (R9) and the free values (R12).

An open parameter or a free value is an `opaque` constant with no body: nothing can evaluate it, so what is proved
holds whatever it is. Where R9 puts a constraint on a parameter, the parameter is computed from a free number so that
the constraint holds by construction (log entry 7). -/

namespace Sys2Proof.Config

/-! ### Fixed parameters (R8) -/

/-- `WINDOW_BYTES`: offsets 0x00 to 0xFF. -/
def windowBytes : Nat := 256
/-- `BUF_BYTES`. -/
abbrev bufBytes : Nat := 16
/-- `ROM_BYTES`. -/
abbrev romBytes : Nat := 8
/-- `NTP_FRAME_BYTES`. -/
abbrev ntpFrameBytes : Nat := 48
/-- `NTP_SECONDS_OFFSET`. -/
def ntpSecondsOffset : Nat := 40
/-- `NTP_TIMEOUT_MS`. -/
def ntpTimeoutMs : Nat := 1500
/-- `NTP_EPOCH_OFFSET` = 2208988800 = 0x83AA7E80 (R8, 43_ntp.md R200). -/
def ntpEpochOffset : Word := 2208988800#32
/-- `CRC_POLY_REFLECTED` (40_crc.md R111). -/
def crcPolyReflected : Byte := 0x8C#8
/-- `CRC_INIT` (40_crc.md R112). -/
def crcInit : Byte := 0x00#8
/-- `OW_MATCH_ROM` (41_onewire.md R141). -/
def owMatchRom : Byte := 0x55#8
/-- `OW_SEARCH_ROM` (42_search.md R162). -/
def owSearchRom : Byte := 0xF0#8

/-! ### Open parameters (R9) -/

/-- The free number behind `pBase`. -/
opaque pBaseIndex : Nat
/-- `P_BASE`: the host address of offset 0x00; 256-byte aligned and otherwise open. -/
def pBase : Nat := 256 * pBaseIndex

/-- The free number behind `ticksPerMs`. -/
opaque ticksPerMsPred : Nat
/-- `P_TICKS_PER_MS`: block clock cycles per NTP millisecond tick; at least 1 and otherwise open. -/
def ticksPerMs : Nat := ticksPerMsPred + 1

/-- The free number behind `cmdLatency`. -/
opaque cmdLatencyPred : Nat
/-- `P_CMD_LATENCY`: cycles a register-only command holds BUSY; the model takes one Sequencer step whatever it is
(93_implementation_defined.md I19). -/
def cmdLatency : Nat := cmdLatencyPred + 1

/-- `P_RESET_ACTIVE`: the active level of the reset input. -/
opaque resetActive : Bool

/-- The free numbers behind the 1-Wire times, numbered 0 to 6 in the order of R9. -/
opaque oneWireTimePred : Fin 7 → Nat
/-- `P_T_RSTL`, `P_T_PDS`, `P_T_SLOT`, `P_T_LOW1`, `P_T_LOW0`, `P_T_RDS`, `P_T_REC`, in this order: positive, and no
rule of the model depends on them (R9, 41_onewire.md R131). -/
def oneWireTime (i : Fin 7) : Nat := oneWireTimePred i + 1

/-! ### Free values (R12) -/

/-- The Bus oracle's answer to the `k`-th draw, where State holds no answer for it (41_onewire.md R132; log entry 4). -/
opaque freeBusAnswer : Nat → Bool
/-- What the `k`-th unspecified register read returns (10_state.md R47, 00_scope.md R12; log entry 5). -/
opaque freeReadValue : Nat → Word

end Sys2Proof.Config
end

