-- ==== Sys2Proof/Syntax.lean ====
section
/-! DEFINITION. The commands of the block, one constructor per row of spec/opcode_table.json (30_encoding.md R91), and
the types the decoder and the opcode table speak of. -/

namespace Sys2Proof

/-- The array a CRC command reads: SRC = 0 is BUF, SRC = 1 is ROM (30_encoding.md R94). -/
inductive CrcSource where
  | buf
  | rom
  deriving DecidableEq, Repr

/-- A command (30_encoding.md R91, R93). -/
inductive Instr where
  /-- OW_RESET (41_onewire.md R140). -/
  | owReset
  /-- OW_SELECT (41_onewire.md R141). -/
  | owSelect
  /-- OW_WRITE `b`, with the parasite-power hold when `spu` (41_onewire.md R142). -/
  | owWrite (b : Byte) (spu : Bool)
  /-- OW_READ `n` bytes (41_onewire.md R143). -/
  | owRead (n : Nat)
  /-- SRCH_NEXT (42_search.md R166). -/
  | srchNext
  /-- SRCH_RESET (42_search.md R167). -/
  | srchReset
  /-- CRC over the first `len` bytes of `src` (40_crc.md R116). -/
  | crc (src : CrcSource) (len : Nat)
  /-- NTP_START (43_ntp.md R193). -/
  | ntpStart
  deriving DecidableEq, Repr

/-- Why a word is `Illegal` (30_encoding.md R92, R95, R96). The block records only ILLEGAL_CMD; the reason is the
model's, for its reader. -/
inductive IllegalWord where
  /-- RSV, bits 31:18, is not 0. -/
  | reservedBits
  /-- OP is none of the eight of R91. -/
  | unassignedOpcode
  /-- ARG, SPU or SRC is not 0 where the opcode has no use for it. -/
  | unusedField
  /-- ARG is outside the range of OW_READ or CRC. -/
  | argRange
  deriving DecidableEq, Repr

/-- What the decoder makes of a word. -/
inductive Decoded where
  | cmd (i : Instr)
  | illegal (why : IllegalWord)
  deriving DecidableEq, Repr

/-- One row of the opcode table: a word matches it when `w &&& mask = pattern` (30_encoding.md R92). -/
structure OpcodeRow where
  mnemonic : String
  pattern : Word
  mask : Word
  deriving DecidableEq, Repr

end Sys2Proof
end

