-- ==== Sys2Proof/Machine/State.lean ====
section
/-! DEFINITION. The state of the block and of the agents around it (10_state.md R42 to R49, 00_scope.md R7), as plain
data, the two reasons a step can stop, and the state after reset (10_state.md R48). -/

namespace Sys2Proof.Machine

/-- NTP_STATE, the NTP client's state machine (10_state.md R29). -/
inductive NtpState where
  | idle
  | awaiting
  | done
  | timedOut
  deriving DecidableEq, Repr

/-- The values ERROR.CODE takes; codes 0x04 to 0xFF are never raised (60_exceptions.md R220). -/
inductive ErrorCode where
  | none
  | badAccess
  | busyWrite
  | illegalCmd
  deriving DecidableEq, Repr

/-- The bus line between steps (10_state.md R43). -/
inductive LineState where
  | released
  | spu
  deriving DecidableEq, Repr

/-- One event of the bus history (10_state.md R45). -/
inductive BusEvent where
  /-- A reset pulse and its presence sample. -/
  | reset (presence : Bool)
  /-- A write slot of a bit. -/
  | w (b : Bool)
  /-- A read slot that sampled a bit. -/
  | r (b : Bool)
  | spuOn
  | spuOff
  deriving DecidableEq, Repr

/-- The micro-operation state `k` of a running command: which micro-operation comes next (10_state.md R42; DESIGN
CHOICE, safe: log entry 6). -/
inductive MicroState where
  /-- The command was accepted and has not got past the prelude of 41_onewire.md R135. -/
  | start
  /-- OW_SELECT, OW_WRITE: write slot `j` comes next. -/
  | writeSlot (j : Nat)
  /-- OW_READ: read slot `j` comes next; `acc` holds the bits of its byte read so far. -/
  | readSlot (j : Nat) (acc : Byte)
  /-- OW_WRITE with SPU: taking the strong pull-up comes next. -/
  | takeSpu
  /-- SRCH_NEXT: bit `j` of the search byte 0xF0 comes next. -/
  | searchByte (j : Nat)
  /-- SRCH_NEXT: the first read slot of position `n` comes next. -/
  | searchFirst (n lastZero : Nat)
  /-- SRCH_NEXT: the second read slot of position `n` comes next; the first sampled `a`. -/
  | searchSecond (n lastZero : Nat) (a : Bool)
  /-- SRCH_NEXT: the write slot of `d` at position `n` comes next. -/
  | searchWrite (n lastZero : Nat) (d : Bool)
  deriving DecidableEq, Repr

/-- The Sequencer's state (10_state.md R42). -/
inductive SeqState where
  | idle
  | running (cmd : Instr) (k : MicroState)
  deriving DecidableEq, Repr

/-- The width of a host access; only 32 bits is admitted (20_memory.md R62). -/
inductive AccessWidth where
  | w8
  | w16
  | w32
  deriving DecidableEq, Repr

/-- A register of the map (10_state.md R20). -/
inductive Reg where
  | cmd
  | status
  | error
  | crcResult
  | rom (k : Fin 2)
  | searchState
  | srom (k : Fin 2)
  | ntpSeconds
  | ntpRaw
  | ntpElapsed
  | ntpRxLen
  | buf (k : Fin 4)
  | ntpRx (k : Fin 12)
  | ntpTx (k : Fin 12)
  deriving DecidableEq, Repr

/-- A statement of the host's program (30_encoding.md R99), with host addresses as numbers. -/
inductive HostStmt where
  /-- A register read of any width. -/
  | rd (addr : Nat) (width : AccessWidth)
  /-- A register write of any width. -/
  | wr (addr : Nat) (width : AccessWidth) (v : Word)
  /-- WAIT_IDLE: one read of STATUS a step, until BUSY = 0. -/
  | waitIdle
  /-- WAIT_NTP: one read of STATUS a step, until NTP_STATE is DONE or TIMEDOUT. -/
  | waitNtp
  /-- The write of `w` to CMD together with the Sequencer steps that complete the command, with no other agent's step
  between them: one of the interleavings 00_scope.md R7 admits, taken as one step (log entry 3). -/
  | runCommand (w : Word)
  deriving DecidableEq, Repr

/-- Which agent steps next (00_scope.md R7), or a change of the reset input (70_reset_and_hazards.md R250). The Bus
agent has no turn of its own: it answers inside a Sequencer step (41_onewire.md R131). -/
inductive Turn where
  | host
  | sequencer
  | ntpTimer
  /-- The reset input is driven to `level`. -/
  | resetPin (level : Bool)
  deriving DecidableEq, Repr

/-- Why the machine stops. -/
inductive Fault where
  /-- The host accesses the window while the reset input is active. The spec calls this stuck, not given a value
  (70_reset_and_hazards.md R250, 93_implementation_defined.md I6). Raised by the host's accesses and by every command
  issue. Safe: the spec has no step there. -/
  | hostAccessInReset
  deriving DecidableEq, Repr

/-- Why an instruction has no meaning. -/
inductive Refusal where
  /-- The command named has no meaning yet. Raised only by an arm of `exec`; no arm does. Safe. -/
  | notModelled (mnemonic : String)
  deriving DecidableEq, Repr

/-- The state (10_state.md R49), the level of the reset input, and the agents' own data. -/
structure State where
  /-- STATUS.BUSY (R24). -/
  busy : Bool
  /-- STATUS.PRESENCE (R25). -/
  presence : Bool
  /-- STATUS.FOUND (R26). -/
  found : Bool
  /-- STATUS.CRC_MATCH (R27). -/
  crcMatch : Bool
  /-- STATUS.SPU (R28). -/
  spu : Bool
  /-- STATUS.NTP_STATE (R29). -/
  ntpState : NtpState
  /-- ERROR.CODE (R30). -/
  errCode : ErrorCode
  /-- ERROR.MORE (R30). -/
  errMore : Bool
  /-- CRC_RESULT[7:0] (R31). -/
  crcResult : Byte
  /-- ROM[0..7] (R32). -/
  rom : Vector Byte Config.romBytes
  /-- SEARCH_STATE.LAST_DISCREPANCY, 0 to 64 (R33). -/
  lastDiscrepancy : Nat
  /-- SEARCH_STATE.LAST_DEVICE (R33). -/
  lastDevice : Bool
  /-- SROM[0..7] (R34). -/
  srom : Vector Byte Config.romBytes
  /-- NTP_SECONDS (R35). -/
  ntpSeconds : Word
  /-- NTP_RAW (R36). -/
  ntpRaw : Word
  /-- NTP_ELAPSED[15:0] (R37). -/
  ntpElapsed : BitVec 16
  /-- NTP_RXLEN[15:0] (R38). -/
  ntpRxLen : BitVec 16
  /-- BUF[0..15] (R39). -/
  buf : Vector Byte Config.bufBytes
  /-- RX[0..47] (R40). -/
  rx : Vector Byte Config.ntpFrameBytes
  /-- The Sequencer's state (R42). -/
  seq : SeqState
  /-- The bus line's state (R43). -/
  line : LineState
  /-- The NTP tick divider (R44). -/
  tickDiv : Nat
  /-- The bus history, oldest event first (R45). -/
  hist : List BusEvent
  /-- The reset input is at its active level (70_reset_and_hazards.md R250). -/
  inReset : Bool
  /-- The rest of the host's program (00_scope.md R7). The model's own field. -/
  program : List HostStmt
  /-- Whose turn is next (00_scope.md R7). The model's own field. -/
  schedule : List Turn
  /-- The answers the Bus gives next (41_onewire.md R132). The model's own field. -/
  busAnswers : List Bool
  /-- How many free values were drawn (00_scope.md R12). The model's own field. -/
  draws : Nat
  /-- What the host's reads returned, oldest first. The model's own field. -/
  readLog : List Word
  deriving DecidableEq, Repr

/-- The state after reset, the reset input released (10_state.md R48, 70_reset_and_hazards.md R250). The fields of the
model's own are empty: DESIGN CHOICE, log entry 11. -/
def State.reset : State where
  busy := false
  presence := false
  found := false
  crcMatch := false
  spu := false
  ntpState := .idle
  errCode := .none
  errMore := false
  crcResult := 0#8
  rom := Vector.replicate Config.romBytes 0#8
  lastDiscrepancy := 0
  lastDevice := false
  srom := Vector.replicate Config.romBytes 0#8
  ntpSeconds := 0#32
  ntpRaw := 0#32
  ntpElapsed := 0#16
  ntpRxLen := 0#16
  buf := Vector.replicate Config.bufBytes 0#8
  rx := Vector.replicate Config.ntpFrameBytes 0#8
  seq := .idle
  line := .released
  tickDiv := 0
  hist := []
  inReset := false
  program := []
  schedule := []
  busAnswers := []
  draws := 0
  readLog := []

end Sys2Proof.Machine
end

