-- ==== Sys2Proof/Machine/Flags.lean ====
section
/-! DEFINITION. The register views of the fields: STATUS (10_state.md R23), ERROR (R30), SEARCH_STATE (R33), the
narrow registers (R31, R37, R38), and the pins between steps (41_onewire.md R130). -/

namespace Sys2Proof.Machine

/-- The code of NTP_STATE (10_state.md R29). -/
def NtpState.bits : NtpState → BitVec 2
  | .idle => 0#2
  | .awaiting => 1#2
  | .done => 2#2
  | .timedOut => 3#2

/-- The value of ERROR.CODE (60_exceptions.md R220). -/
def ErrorCode.bits : ErrorCode → Byte
  | .none => 0x00#8
  | .badAccess => 0x01#8
  | .busyWrite => 0x02#8
  | .illegalCmd => 0x03#8

/-- STATUS as it is read (20_memory.md R63). -/
def statusWord (s : State) : Word :=
  (s.ntpState.bits ++ 0#3 ++ BitVec.ofBool s.spu ++ BitVec.ofBool s.crcMatch ++ BitVec.ofBool s.found ++
    BitVec.ofBool s.presence ++ BitVec.ofBool s.busy).setWidth 32

/-- ERROR as it is read (20_memory.md R63). -/
def errorWord (s : State) : Word := (BitVec.ofBool s.errMore ++ s.errCode.bits).setWidth 32

/-- SEARCH_STATE as it is read: LAST_DISCREPANCY in bits 6:0, LAST_DEVICE in bit 8 (20_memory.md R63). -/
def searchStateWord (s : State) : Word :=
  (BitVec.ofBool s.lastDevice ++ 0#1 ++ BitVec.ofNat 7 s.lastDiscrepancy).setWidth 32

/-- The pin `ow_spu` between steps (41_onewire.md R130, 10_state.md R43). -/
def owSpuPin (s : State) : Bool := s.line == .spu

/-- The pin `ow_pd` between steps: the low pulses of a micro-operation are not state between steps (10_state.md
R43), so it is never asserted there. -/
def owPdPin (_ : State) : Bool := false

end Sys2Proof.Machine
end

