-- ==== Sys2Proof/Machine/Operands.lean ====
section
/-! DEFINITION. Bytes, bits and words of the block's byte arrays: little-endian register packing (20_memory.md R64),
least significant bit first (R70), the big-endian NTP field (R72). -/

namespace Sys2Proof.Machine

/-- Byte `i` of a byte array; no rule reads past the end of one. -/
def byteAt {n : Nat} (x : Vector Byte n) (i : Nat) : Byte := x.getD i 0#8

/-- The array with byte `i` set. -/
def setByte {n : Nat} (x : Vector Byte n) (i : Nat) (b : Byte) : Vector Byte n := x.setIfInBounds i b

/-- The byte with bit `i` set to `b`. -/
def setBit (v : Byte) (i : Nat) (b : Bool) : Byte :=
  if b then v ||| (1#8 <<< i) else v &&& ~~~(1#8 <<< i)

/-- Bit `i mod 8` of byte `i div 8`: bit `i` of the array in bus order (20_memory.md R70, R71). Search bit position
`n` is bit `n - 1` (10_state.md R34). -/
def arrayBit {n : Nat} (x : Vector Byte n) (i : Nat) : Bool := (byteAt x (i / 8)).getLsbD (i % 8)

/-- The array with that bit set. -/
def setArrayBit {n : Nat} (x : Vector Byte n) (i : Nat) (b : Bool) : Vector Byte n :=
  setByte x (i / 8) (setBit (byteAt x (i / 8)) (i % 8) b)

/-- `pack(X, i) = X[i+3] ++ X[i+2] ++ X[i+1] ++ X[i]` (20_memory.md R63, R64). -/
def packWord {n : Nat} (x : Vector Byte n) (i : Nat) : Word :=
  byteAt x (i + 3) ++ byteAt x (i + 2) ++ byteAt x (i + 1) ++ byteAt x i

/-- `unpack(X, i, v)` (20_memory.md R65). -/
def unpackWord {n : Nat} (x : Vector Byte n) (i : Nat) (v : Word) : Vector Byte n :=
  setByte (setByte (setByte (setByte x i (v.extractLsb' 0 8)) (i + 1) (v.extractLsb' 8 8))
    (i + 2) (v.extractLsb' 16 8)) (i + 3) (v.extractLsb' 24 8)

/-- `be32(X[i..i+3])`, the big-endian 32-bit value at byte `i` (43_ntp.md R198). -/
def be32 {n : Nat} (x : Vector Byte n) (i : Nat) : Word :=
  byteAt x i ++ byteAt x (i + 1) ++ byteAt x (i + 2) ++ byteAt x (i + 3)

end Sys2Proof.Machine
end

