-- ==== Sys2Proof/Machine/Ops.lean ====
section
/-! DEFINITION. The shared operations: recording an error (60_exceptions.md R222) and clearing it (R227), the bus
micro-operations (41_onewire.md R131), the strong pull-up prelude (R135), accepting and completing a command
(20_memory.md R66), and running a command. -/

namespace Sys2Proof.Machine

/-! ### Errors

The block takes no exception (60_exceptions.md R225): raising an error records it in ERROR and nothing else. -/

/-- `raise Error(code)` (60_exceptions.md R222). -/
def raiseError (code : ErrorCode) (s : State) : State :=
  if s.errCode = .none then { s with errCode := code } else { s with errMore := true }

/-- A host write of ERROR clears it, whatever the value (10_state.md R30, 60_exceptions.md R227). -/
def clearError (s : State) : State := { s with errCode := .none, errMore := false }

/-! ### Free values -/

/-- The Bus oracle's next answer: the next one State holds, else a free value (41_onewire.md R132; log entry 4). -/
def drawAnswer (s : State) : Bool × State :=
  match s.busAnswers with
  | b :: rest => (b, { s with busAnswers := rest })
  | [] => (Config.freeBusAnswer s.draws, { s with draws := s.draws + 1 })

/-- A fresh unspecified 32-bit read value (10_state.md R47; log entry 5). -/
def drawReadValue (s : State) : Word × State :=
  (Config.freeReadValue s.draws, { s with draws := s.draws + 1 })

/-! ### Bus micro-operations (41_onewire.md R131)

Each appends exactly one event to `hist`. -/

/-- The state with one more bus event. -/
def logEvent (e : BusEvent) (s : State) : State := { s with hist := s.hist ++ [e] }

/-- `bus_reset() -> p`. -/
def busReset (s : State) : Bool × State :=
  ((drawAnswer s).1, logEvent (.reset (drawAnswer s).1) (drawAnswer s).2)

/-- `bus_write_bit(b)`. -/
def busWriteBit (b : Bool) (s : State) : State := logEvent (.w b) s

/-- `bus_read_bit() -> b`. -/
def busReadBit (s : State) : Bool × State :=
  ((drawAnswer s).1, logEvent (.r (drawAnswer s).1) (drawAnswer s).2)

/-- `bus_spu_on()` with the line and the status bit that go with it (41_onewire.md R142). -/
def takeSpu (s : State) : State := { logEvent .spuOn s with line := .spu, spu := true }

/-- The step of `release_spu()` that is taken when the line is in `Spu` (41_onewire.md R135). -/
def releaseSpu (s : State) : State := { logEvent .spuOff s with line := .released, spu := false }

/-- A bus-driving command's step from `start`: the prelude's step while the line is in `Spu`, else the command's own
first micro-operation `first` (41_onewire.md R135). -/
def afterRelease (first : State → State) (s : State) : State :=
  if s.line = .spu then releaseSpu s else first s

/-! ### A command's life (20_memory.md R66, 10_state.md R24, R42) -/

/-- An accepted command: BUSY is 1 and the Sequencer starts it. -/
def accept (i : Instr) (s : State) : State := { s with busy := true, seq := .running i .start }

/-- The running command's next micro-operation state. -/
def goTo (i : Instr) (k : MicroState) (s : State) : State := { s with seq := .running i k }

/-- The completing step's `BUSY <- 0; seq <- Idle`. -/
def complete (s : State) : State := { s with busy := false, seq := .idle }

/-- At most `n` micro-operations of the running command, ending early when it completes. -/
def runMicro (micro : MicroState → State → State) : Nat → State → State
  | 0, s => s
  | n + 1, s =>
    match s.seq with
    | .idle => s
    | .running _ k => runMicro micro n (micro k s)

/-- Issuing the command `i` and running it to its end with no other agent's step between: refused with BUSY_WRITE
while BUSY = 1 (20_memory.md R66), stuck while the reset input is active (70_reset_and_hazards.md R250). `n` is the
command's largest number of Sequencer steps (R271) and `micro` its micro-operations. Log entry 3. -/
def issueAndRun (i : Instr) (n : Nat) (micro : MicroState → State → State) (s : State) :
    Host.Outcome State Fault Refusal :=
  if s.inReset then .fault .hostAccessInReset
  else if s.busy then .next (raiseError .busyWrite s)
  else .next (runMicro micro n (accept i s))

end Sys2Proof.Machine
end

