-- ==== Sys2Proof/Machine/Crc.lean ====
section
/-! DEFINITION. The CRC-8 generator (40_crc.md). -/

namespace Sys2Proof.Machine

/-! ### The function (R110) -/

/-- One turn of R110's loop: the register `c` after the least significant bit of `b`. -/
def crc8Bit (c b : Byte) : Byte :=
  if (c ^^^ b) &&& 1#8 = 1#8 then (c >>> 1) ^^^ Config.crcPolyReflected else c >>> 1

/-- `k` turns of the loop. -/
def crc8Loop : Nat → Byte → Byte → Byte
  | 0, c, _ => c
  | k + 1, c, b => crc8Loop k (crc8Bit c b) (b >>> 1)

/-- `crc8_step(c, b)`. -/
def crc8Step (c b : Byte) : Byte := crc8Loop 8 c b

/-- `crc8(seq)`. -/
def crc8 (seq : List Byte) : Byte := seq.foldl crc8Step Config.crcInit

/-! ### The command (R116) -/

/-- The array a CRC command reads, whole. -/
def crcArray (src : CrcSource) (s : State) : List Byte :=
  match src with
  | .buf => s.buf.toList
  | .rom => s.rom.toList

/-- The CRC of the first `len` bytes. -/
def crcOf (src : CrcSource) (len : Nat) (s : State) : Byte := crc8 ((crcArray src s).take len)

/-- The check: `len < size` and the byte at index `len` equals the CRC. -/
def crcCheck (src : CrcSource) (len : Nat) (s : State) : Bool :=
  match (crcArray src s)[len]? with
  | some check => check == crcOf src len s
  | none => false

/-- The one, completing, Sequencer step of CRC. -/
def microCrc (src : CrcSource) (len : Nat) (_ : MicroState) (s : State) : State :=
  complete { s with crcResult := crcOf src len s, crcMatch := crcCheck src len s }

/-- CRC (R116). -/
def execCrc (src : CrcSource) (len : Nat) (s : State) : Host.Outcome State Fault Refusal :=
  issueAndRun (.crc src len) 1 (microCrc src len) s

end Sys2Proof.Machine
end

