-- ==== Sys2Proof/Machine/Ntp.lean ====
section
/-! DEFINITION. The NTP unit: the request frame (43_ntp.md R190), NTP_START (R193), the timer (R196), the delivery and
the parser (R197 to R199). -/

namespace Sys2Proof.Machine

/-- The request frame TX[0..47] (R190). -/
def txFrame : Vector Byte Config.ntpFrameBytes :=
  #v[0xE3#8, 0x00#8, 0x06#8, 0xEC#8,
     0#8, 0#8, 0#8, 0#8,
     0#8, 0#8, 0#8, 0#8,
     0x31#8, 0x4E#8, 0x31#8, 0x34#8,
     0#8, 0#8, 0#8, 0#8, 0#8, 0#8, 0#8, 0#8,
     0#8, 0#8, 0#8, 0#8, 0#8, 0#8, 0#8, 0#8,
     0#8, 0#8, 0#8, 0#8, 0#8, 0#8, 0#8, 0#8,
     0#8, 0#8, 0#8, 0#8, 0#8, 0#8, 0#8, 0#8]

/-- The one, completing, Sequencer step of NTP_START. -/
def microNtpStart (_ : MicroState) (s : State) : State :=
  complete { s with
    rx := Vector.replicate Config.ntpFrameBytes 0#8
    ntpRxLen := 0#16
    ntpRaw := 0#32
    ntpSeconds := 0#32
    ntpElapsed := 0#16
    tickDiv := 0
    ntpState := .awaiting }

/-- NTP_START (R193). -/
def execNtpStart (s : State) : Host.Outcome State Fault Refusal := issueAndRun .ntpStart 1 microNtpStart s

/-- The seconds field of the reply in RX (R198). -/
def replySeconds (s : State) : Word := be32 s.rx Config.ntpSecondsOffset

/-- `u32(raw - NTP_EPOCH_OFFSET)` (R199). -/
def unixSeconds (raw : Word) : Word := raw - Config.ntpEpochOffset

/-- The delivery of a datagram of length `len`, parsed in the same step (R197). -/
def deliver (len : BitVec 16) (s : State) : State :=
  if s.ntpState = .awaiting ∧ Config.ntpFrameBytes ≤ len.toNat then
    { s with
      ntpRxLen := len
      ntpRaw := replySeconds s
      ntpSeconds := unixSeconds (replySeconds s)
      ntpState := .done }
  else { s with ntpRxLen := len }

/-- The NtpTimer's step, enabled exactly while NTP_STATE = AWAITING and the reset input is released (R196). -/
def ntpTimerStep (s : State) : State :=
  if s.inReset = false ∧ s.ntpState = .awaiting then
    { s with
      ntpElapsed := s.ntpElapsed + 1#16
      ntpState := if (s.ntpElapsed + 1#16).toNat = Config.ntpTimeoutMs then .timedOut else .awaiting }
  else s

end Sys2Proof.Machine
end

