-- ==== Sys2Proof/Machine/OneWire.lean ====
section
/-! DEFINITION. The 1-Wire bus controller's commands OW_RESET, OW_SELECT, OW_WRITE, OW_READ (41_onewire.md R140 to
R143). A `micro…` function is one Sequencer step of its command; the micro-operation states a command never reaches
are answered as its slot 0 (log entry 6). -/

namespace Sys2Proof.Machine

/-! ### OW_RESET (R140) -/

/-- The reset pulse, its presence sample into PRESENCE, and the completion in the same step. -/
def owResetPulse (s : State) : State := complete { (busReset s).2 with presence := (busReset s).1 }

/-- One Sequencer step of OW_RESET. -/
def microOwReset (_ : MicroState) (s : State) : State := afterRelease owResetPulse s

/-- OW_RESET: at most the SpuOff step and the pulse. -/
def execOwReset (s : State) : Host.Outcome State Fault Refusal := issueAndRun .owReset 2 microOwReset s

/-! ### OW_SELECT (R141) -/

/-- The bit of write slot `j` of a select: `OW_MATCH_ROM` in slots 0 to 7, then ROM[0..7], each byte least
significant bit first. -/
def selectBit (rom : Vector Byte Config.romBytes) (j : Nat) : Bool :=
  if j < 8 then Config.owMatchRom.getLsbD j else arrayBit rom (j - 8)

/-- Write slot `j` of 72; the last one completes. -/
def owSelectSlot (j : Nat) (s : State) : State :=
  if j + 1 < 72 then goTo .owSelect (.writeSlot (j + 1)) (busWriteBit (selectBit s.rom j) s)
  else complete (busWriteBit (selectBit s.rom j) s)

/-- One Sequencer step of OW_SELECT. -/
def microOwSelect (k : MicroState) (s : State) : State :=
  match k with
  | .start => afterRelease (owSelectSlot 0) s
  | .writeSlot j => owSelectSlot j s
  | _ => owSelectSlot 0 s

/-- OW_SELECT: at most the SpuOff step and 72 slots. -/
def execOwSelect (s : State) : Host.Outcome State Fault Refusal := issueAndRun .owSelect 73 microOwSelect s

/-! ### OW_WRITE (R142) -/

/-- Write slot `j` of 8; after the last the command completes, or with `spu` takes the strong pull-up next. -/
def owWriteSlot (b : Byte) (spu : Bool) (j : Nat) (s : State) : State :=
  if j + 1 < 8 then goTo (.owWrite b spu) (.writeSlot (j + 1)) (busWriteBit (b.getLsbD j) s)
  else if spu then goTo (.owWrite b spu) .takeSpu (busWriteBit (b.getLsbD j) s)
  else complete (busWriteBit (b.getLsbD j) s)

/-- One Sequencer step of OW_WRITE. -/
def microOwWrite (b : Byte) (spu : Bool) (k : MicroState) (s : State) : State :=
  match k with
  | .start => afterRelease (owWriteSlot b spu 0) s
  | .writeSlot j => owWriteSlot b spu j s
  | .takeSpu => complete (takeSpu s)
  | _ => owWriteSlot b spu 0 s

/-- OW_WRITE: at most the SpuOff step, 8 slots and the SpuOn step. -/
def execOwWrite (b : Byte) (spu : Bool) (s : State) : Host.Outcome State Fault Refusal :=
  issueAndRun (.owWrite b spu) 10 (microOwWrite b spu) s

/-! ### OW_READ (R143) -/

/-- The accumulated byte after read slot `j` sampled `b`: the `i`-th slot of a byte gives its bit `i` (R134). -/
def readAcc (j : Nat) (acc : Byte) (b : Bool) : Byte := setBit acc (j % 8) b

/-- Read slot `j` of 8n; the eighth slot of a byte stores it in BUF, the last slot completes. -/
def owReadSlot (n j : Nat) (acc : Byte) (s : State) : State :=
  if j % 8 = 7 then
    if j + 1 < 8 * n then
      goTo (.owRead n) (.readSlot (j + 1) 0#8)
        { (busReadBit s).2 with buf := setByte s.buf (j / 8) (readAcc j acc (busReadBit s).1) }
    else complete { (busReadBit s).2 with buf := setByte s.buf (j / 8) (readAcc j acc (busReadBit s).1) }
  else goTo (.owRead n) (.readSlot (j + 1) (readAcc j acc (busReadBit s).1)) (busReadBit s).2

/-- One Sequencer step of OW_READ. -/
def microOwRead (n : Nat) (k : MicroState) (s : State) : State :=
  match k with
  | .start => afterRelease (owReadSlot n 0 0#8) s
  | .readSlot j acc => owReadSlot n j acc s
  | _ => owReadSlot n 0 0#8 s

/-- OW_READ: at most the SpuOff step and 8n slots. -/
def execOwRead (n : Nat) (s : State) : Host.Outcome State Fault Refusal :=
  issueAndRun (.owRead n) (8 * n + 1) (microOwRead n) s

end Sys2Proof.Machine
end

