-- ==== Sys2Proof/Machine/Search.lean ====
section
/-! DEFINITION. The 1-Wire ROM search: SRCH_NEXT (42_search.md R166) and SRCH_RESET (R167). -/

namespace Sys2Proof.Machine

/-! ### The search step (R163, R164) -/

/-- The direction at a discrepancy at position `n`: the previous path below LAST_DISCREPANCY, 1 at it, 0 above (R164). -/
def discrepancyDirection (s : State) (n : Nat) : Bool :=
  if n < s.lastDiscrepancy then arrayBit s.srom (n - 1) else decide (n = s.lastDiscrepancy)

/-- The bit written at position `n` when the read slots gave `a` and `c`, not both 1 (R163, R164). -/
def searchDirection (s : State) (n : Nat) (a c : Bool) : Bool :=
  if a = c then discrepancyDirection s n else a

/-- `last_zero` after position `n`: `n` where a discrepancy was resolved to 0 (R164). -/
def lastZeroAfter (s : State) (n lastZero : Nat) (a c : Bool) : Nat :=
  if a = c ∧ discrepancyDirection s n = false then n else lastZero

/-! ### The end of a search (R165, R166) -/

/-- The search state a search that resolved all 64 positions leaves (R165). -/
def recordDiscrepancy (lastZero : Nat) (s : State) : State :=
  { s with lastDiscrepancy := lastZero, lastDevice := if lastZero = 0 then true else s.lastDevice }

/-- `None`: a fresh search state and FOUND = 0. -/
def searchNone (s : State) : State := { s with lastDiscrepancy := 0, lastDevice := false, found := false }

/-- `Address`: SROM is copied to ROM and FOUND = 1. -/
def searchFound (s : State) : State := { s with rom := s.srom, found := true }

/-- The end of a SRCH_NEXT: `None` when the search failed or the family code is 0x00 (R169), else `Address`. -/
def finishSearch (ok : Bool) (s : State) : State :=
  if ok = false ∨ byteAt s.srom 0 = 0x00#8 then complete (searchNone s) else complete (searchFound s)

/-! ### The steps of SRCH_NEXT (R166) -/

/-- The reset pulse; with presence the search byte comes next, without it the result is `None`. -/
def searchPulse (s : State) : State :=
  if (busReset s).1 then goTo .srchNext (.searchByte 0) { (busReset s).2 with presence := (busReset s).1 }
  else finishSearch false { (busReset s).2 with presence := (busReset s).1 }

/-- SRCH_NEXT's first step: after the last device of a pass `None` at once, with no bus event and no release. -/
def searchStart (s : State) : State :=
  if s.lastDevice then finishSearch false s else afterRelease searchPulse s

/-- Bit `j` of the search byte. -/
def searchByteSlot (j : Nat) (s : State) : State :=
  if j + 1 < 8 then goTo .srchNext (.searchByte (j + 1)) (busWriteBit (Config.owSearchRom.getLsbD j) s)
  else goTo .srchNext (.searchFirst 1 0) (busWriteBit (Config.owSearchRom.getLsbD j) s)

/-- The first read slot of position `n`. -/
def searchReadFirst (n lastZero : Nat) (s : State) : State :=
  goTo .srchNext (.searchSecond n lastZero (busReadBit s).1) (busReadBit s).2

/-- The second read slot of position `n`: both 1 ends the search, no device answers; else the direction is chosen. -/
def searchReadSecond (n lastZero : Nat) (a : Bool) (s : State) : State :=
  if a = true ∧ (busReadBit s).1 = true then finishSearch false (busReadBit s).2
  else
    goTo .srchNext
      (.searchWrite n (lastZeroAfter s n lastZero a (busReadBit s).1) (searchDirection s n a (busReadBit s).1))
      (busReadBit s).2

/-- The write slot of position `n`, with the SROM bit; position 64 ends the search. -/
def searchWriteSlot (n lastZero : Nat) (d : Bool) (s : State) : State :=
  if n < 64 then
    goTo .srchNext (.searchFirst (n + 1) lastZero) { busWriteBit d s with srom := setArrayBit s.srom (n - 1) d }
  else
    finishSearch true (recordDiscrepancy lastZero { busWriteBit d s with srom := setArrayBit s.srom (n - 1) d })

/-- One Sequencer step of SRCH_NEXT. -/
def microSrchNext (k : MicroState) (s : State) : State :=
  match k with
  | .searchByte j => searchByteSlot j s
  | .searchFirst n lastZero => searchReadFirst n lastZero s
  | .searchSecond n lastZero a => searchReadSecond n lastZero a s
  | .searchWrite n lastZero d => searchWriteSlot n lastZero d s
  | _ => searchStart s

/-- SRCH_NEXT: at most the SpuOff step and 201 steps (70_reset_and_hazards.md R252). -/
def execSrchNext (s : State) : Host.Outcome State Fault Refusal := issueAndRun .srchNext 202 microSrchNext s

/-! ### SRCH_RESET (R167) -/

/-- The one, completing, Sequencer step of SRCH_RESET. -/
def microSrchReset (_ : MicroState) (s : State) : State :=
  complete { s with lastDiscrepancy := 0, lastDevice := false, found := false }

/-- SRCH_RESET. -/
def execSrchReset (s : State) : Host.Outcome State Fault Refusal := issueAndRun .srchReset 1 microSrchReset s

end Sys2Proof.Machine
end

