-- ==== Sys2Proof/Machine/Sequencer.lean ====
section
/-! DEFINITION. The Sequencer agent: one micro-operation of the running command per step (00_scope.md R7, 10_state.md
R42). -/

namespace Sys2Proof.Machine

/-- The micro-operations of a command. -/
def microOf : Instr → MicroState → State → State
  | .owReset => microOwReset
  | .owSelect => microOwSelect
  | .owWrite b spu => microOwWrite b spu
  | .owRead n => microOwRead n
  | .srchNext => microSrchNext
  | .srchReset => microSrchReset
  | .crc src len => microCrc src len
  | .ntpStart => microNtpStart

/-- The Sequencer's step, enabled while a command runs and the reset input is released. -/
def sequencerStep (s : State) : State :=
  if s.inReset then s
  else
    match s.seq with
    | .idle => s
    | .running i k => microOf i k s

/-- The largest number of Sequencer steps a command takes, the SpuOff step included (70_reset_and_hazards.md R252,
R271). -/
def maxSteps : Instr → Nat
  | .owReset => 2
  | .owSelect => 73
  | .owWrite _ _ => 10
  | .owRead n => 8 * n + 1
  | .srchNext => 202
  | .srchReset => 1
  | .crc _ _ => 1
  | .ntpStart => 1

end Sys2Proof.Machine
end

