-- ==== Sys2Proof/Machine/Dispatch.lean ====
section
/-! DEFINITION. `exec`: one arm per command. -/

namespace Sys2Proof.Machine

def exec (i : Instr) (s : State) : Host.Outcome State Fault Refusal :=
  match i with
  | .owReset => Sys2Proof.Machine.execOwReset s
  | .owSelect => Sys2Proof.Machine.execOwSelect s
  | .owWrite b spu => Sys2Proof.Machine.execOwWrite b spu s
  | .owRead n => Sys2Proof.Machine.execOwRead n s
  | .srchNext => Sys2Proof.Machine.execSrchNext s
  | .srchReset => Sys2Proof.Machine.execSrchReset s
  | .crc src len => Sys2Proof.Machine.execCrc src len s
  | .ntpStart => Sys2Proof.Machine.execNtpStart s

end Sys2Proof.Machine
end

