-- ==== Sys2Proof/WellFormed.lean ====
section
/-! DEFINITION. Which commands the format can spell: the operand ranges of 30_encoding.md R92. -/

namespace Sys2Proof

/-- The largest `len` a CRC command admits: 16 over BUF, 8 over ROM (R92). -/
def CrcSource.size : CrcSource → Nat
  | .buf => 16
  | .rom => 8

/-- A command whose operands are in the ranges of R92: OW_READ 1 to 16 bytes, CRC at most its array's size. -/
def Instr.wf : Instr → Bool
  | .owReset => true
  | .owSelect => true
  | .owWrite _ _ => true
  | .owRead n => decide (1 ≤ n ∧ n ≤ 16)
  | .srchNext => true
  | .srchReset => true
  | .crc src len => decide (len ≤ src.size)
  | .ntpStart => true

end Sys2Proof
end

