-- ==== Sys2Proof/Decode.lean ====
section
/-! DEFINITION. The decoder, total on all 2^32 words (30_encoding.md R95), and the encoder (R92, R98). -/

namespace Sys2Proof

/-! ### The fields of a command word (R90) -/

/-- OP, bits 7:0. -/
def opField (w : Word) : Byte := w.extractLsb' 0 8
/-- ARG, bits 15:8. -/
def argField (w : Word) : Byte := w.extractLsb' 8 8
/-- SPU, bit 16. -/
def spuField (w : Word) : Bool := w.getLsbD 16
/-- SRC, bit 17. -/
def srcField (w : Word) : Bool := w.getLsbD 17
/-- RSV, bits 31:18. -/
def rsvField (w : Word) : BitVec 14 := w.extractLsb' 18 14

/-! ### Decoding (R95) -/

/-- A command whose ARG, SPU and SRC must be 0. -/
def decodePlain (arg : Byte) (spu src : Bool) (i : Instr) : Decoded :=
  if arg = 0#8 ∧ spu = false ∧ src = false then .cmd i else .illegal .unusedField

/-- OW_WRITE: any data byte, SPU 0 or 1, SRC 0. -/
def decodeOwWrite (arg : Byte) (spu src : Bool) : Decoded :=
  if src = false then .cmd (.owWrite arg spu) else .illegal .unusedField

/-- OW_READ: SPU and SRC 0, ARG 1 to 16. -/
def decodeOwRead (arg : Byte) (spu src : Bool) : Decoded :=
  if spu = false ∧ src = false then
    if 1 ≤ arg.toNat ∧ arg.toNat ≤ 16 then .cmd (.owRead arg.toNat) else .illegal .argRange
  else .illegal .unusedField

/-- SRC as the array it selects (R94). -/
def crcSourceOf (src : Bool) : CrcSource := if src then .rom else .buf

/-- CRC: SPU 0, ARG at most 16 over BUF, at most 8 over ROM. -/
def decodeCrc (arg : Byte) (spu src : Bool) : Decoded :=
  if spu = false then
    if arg.toNat ≤ (crcSourceOf src).size then .cmd (.crc (crcSourceOf src) arg.toNat) else .illegal .argRange
  else .illegal .unusedField

/-- The decoder of R95: a command, or `Illegal` with the reason. -/
def decodeWord (w : Word) : Decoded :=
  if rsvField w ≠ 0#14 then .illegal .reservedBits
  else if opField w = 0x01#8 then decodePlain (argField w) (spuField w) (srcField w) .owReset
  else if opField w = 0x02#8 then decodePlain (argField w) (spuField w) (srcField w) .owSelect
  else if opField w = 0x03#8 then decodeOwWrite (argField w) (spuField w) (srcField w)
  else if opField w = 0x04#8 then decodeOwRead (argField w) (spuField w) (srcField w)
  else if opField w = 0x10#8 then decodePlain (argField w) (spuField w) (srcField w) .srchNext
  else if opField w = 0x11#8 then decodePlain (argField w) (spuField w) (srcField w) .srchReset
  else if opField w = 0x20#8 then decodeCrc (argField w) (spuField w) (srcField w)
  else if opField w = 0x30#8 then decodePlain (argField w) (spuField w) (srcField w) .ntpStart
  else .illegal .unassignedOpcode

/-- The command a word decodes to, `none` for `Illegal` (R95, R96). -/
def decode (w : Word) : Option Instr :=
  match decodeWord w with
  | .cmd i => some i
  | .illegal _ => none

/-- The command the decoder reads from the `nbits` low bits of `w`, numbered as spec/opcode_table.json numbers them.
A command is one 32-bit word (R90), so bit `k` of `w` is bit `k` of the word written to CMD. -/
def decodeTableWord (nbits w : Nat) : Option Instr := decode (BitVec.ofNat 32 (w % 2 ^ nbits))

/-! ### Encoding (R90, R92, R98) -/

/-- A command word from its fields, RSV = 0 (R90). -/
def commandWord (op arg : Byte) (spu src : Bool) : Word :=
  0#14 ++ BitVec.ofBool src ++ BitVec.ofBool spu ++ arg ++ op

/-- SRC of a CRC command. -/
def CrcSource.bit : CrcSource → Bool
  | .buf => false
  | .rom => true

/-- The word of a command (R92, R98). -/
def encode : Instr → Word
  | .owReset => commandWord 0x01#8 0#8 false false
  | .owSelect => commandWord 0x02#8 0#8 false false
  | .owWrite b spu => commandWord 0x03#8 b spu false
  | .owRead n => commandWord 0x04#8 (BitVec.ofNat 8 n) false false
  | .srchNext => commandWord 0x10#8 0#8 false false
  | .srchReset => commandWord 0x11#8 0#8 false false
  | .crc src len => commandWord 0x20#8 (BitVec.ofNat 8 len) false src.bit
  | .ntpStart => commandWord 0x30#8 0#8 false false

/-! ### The opcode table and the assembler syntax -/

/-- The rows of R92 (spec/opcode_table.json). -/
def opcodeTable : List OpcodeRow :=
  [ ⟨"OW_RESET", 0x00000001#32, 0xFFFFFFFF#32⟩,
    ⟨"OW_SELECT", 0x00000002#32, 0xFFFFFFFF#32⟩,
    ⟨"OW_WRITE", 0x00000003#32, 0xFFFE00FF#32⟩,
    ⟨"OW_READ", 0x00000004#32, 0xFFFF00FF#32⟩,
    ⟨"SRCH_NEXT", 0x00000010#32, 0xFFFFFFFF#32⟩,
    ⟨"SRCH_RESET", 0x00000011#32, 0xFFFFFFFF#32⟩,
    ⟨"CRC", 0x00000020#32, 0xFFFD00FF#32⟩,
    ⟨"NTP_START", 0x00000030#32, 0xFFFFFFFF#32⟩ ]

/-- The mnemonic of a command (R91). -/
def Instr.mnemonic : Instr → String
  | .owReset => "OW_RESET"
  | .owSelect => "OW_SELECT"
  | .owWrite _ _ => "OW_WRITE"
  | .owRead _ => "OW_READ"
  | .srchNext => "SRCH_NEXT"
  | .srchReset => "SRCH_RESET"
  | .crc _ _ => "CRC"
  | .ntpStart => "NTP_START"

/-- The word `w` matches the row `r` (R92). -/
def OpcodeRow.matches (r : OpcodeRow) (w : Word) : Bool := w &&& r.mask == r.pattern

/-- The assembler syntax of a command, operands in decimal (R98). -/
def Instr.assembly : Instr → String
  | .owReset => "OW_RESET"
  | .owSelect => "OW_SELECT"
  | .owWrite b spu => "OW_WRITE " ++ Nat.repr b.toNat ++ (if spu then ", spu" else "")
  | .owRead n => "OW_READ " ++ Nat.repr n
  | .srchNext => "SRCH_NEXT"
  | .srchReset => "SRCH_RESET"
  | .crc .buf len => "CRC.BUF " ++ Nat.repr len
  | .crc .rom len => "CRC.ROM " ++ Nat.repr len
  | .ntpStart => "NTP_START"

end Sys2Proof
end

