-- ==== Sys2Proof/Machine/Registers.lean ====
section
/-! DEFINITION. The host's register accesses: the register map (10_state.md R20), reads (20_memory.md R63, 10_state.md
R47), writes (20_memory.md R65), command issue (R66). -/

namespace Sys2Proof.Machine

/-! ### The map (10_state.md R20) -/

/-- The register at an offset of the window that is a multiple of 4, `none` for a reserved offset. -/
def regAt (off : Nat) : Option Reg :=
  if off = 0x00 then some .cmd
  else if off = 0x04 then some .status
  else if off = 0x08 then some .error
  else if off = 0x0C then some .crcResult
  else if 0x10 ≤ off ∧ off ≤ 0x14 then some (.rom (Fin.ofNat 2 ((off - 0x10) / 4)))
  else if off = 0x18 then some .searchState
  else if 0x1C ≤ off ∧ off ≤ 0x20 then some (.srom (Fin.ofNat 2 ((off - 0x1C) / 4)))
  else if off = 0x24 then some .ntpSeconds
  else if off = 0x28 then some .ntpRaw
  else if off = 0x2C then some .ntpElapsed
  else if off = 0x30 then some .ntpRxLen
  else if 0x40 ≤ off ∧ off ≤ 0x4C then some (.buf (Fin.ofNat 4 ((off - 0x40) / 4)))
  else if 0x80 ≤ off ∧ off ≤ 0xAC then some (.ntpRx (Fin.ofNat 12 ((off - 0x80) / 4)))
  else if 0xC0 ≤ off ∧ off ≤ 0xEC then some (.ntpTx (Fin.ofNat 12 ((off - 0xC0) / 4)))
  else none

/-- The offset of a register. -/
def Reg.offset : Reg → Nat
  | .cmd => 0x00
  | .status => 0x04
  | .error => 0x08
  | .crcResult => 0x0C
  | .rom k => 0x10 + 4 * k.val
  | .searchState => 0x18
  | .srom k => 0x1C + 4 * k.val
  | .ntpSeconds => 0x24
  | .ntpRaw => 0x28
  | .ntpElapsed => 0x2C
  | .ntpRxLen => 0x30
  | .buf k => 0x40 + 4 * k.val
  | .ntpRx k => 0x80 + 4 * k.val
  | .ntpTx k => 0xC0 + 4 * k.val

/-- The window's offset of a host address, `none` outside the window (20_memory.md R61). -/
def windowOffset (addr : Nat) : Option Nat :=
  if Config.pBase ≤ addr ∧ addr < Config.pBase + Config.windowBytes then some (addr - Config.pBase) else none

/-- The one admitted access: 32 bits at an offset that is a multiple of 4 (20_memory.md R62). -/
def admitted (off : Nat) (width : AccessWidth) : Bool := decide (off % 4 = 0) && width == .w32

/-! ### Reads (20_memory.md R63) -/

/-- The current value of a register (R63). -/
def regValue (s : State) : Reg → Word
  | .cmd => 0#32
  | .status => statusWord s
  | .error => errorWord s
  | .crcResult => s.crcResult.setWidth 32
  | .rom k => packWord s.rom (4 * k.val)
  | .searchState => searchStateWord s
  | .srom k => packWord s.srom (4 * k.val)
  | .ntpSeconds => s.ntpSeconds
  | .ntpRaw => s.ntpRaw
  | .ntpElapsed => s.ntpElapsed.setWidth 32
  | .ntpRxLen => s.ntpRxLen.setWidth 32
  | .buf k => packWord s.buf (4 * k.val)
  | .ntpRx k => packWord s.rx (4 * k.val)
  | .ntpTx k => packWord txFrame (4 * k.val)

/-- The registers a command writes over several Sequencer steps (10_state.md R47). -/
def multiStepTarget : Instr → Reg → Bool
  | .owRead _, .buf _ => true
  | .srchNext, .rom _ => true
  | .srchNext, .srom _ => true
  | .srchNext, .searchState => true
  | _, _ => false

/-- A read of `r` is unspecified now (10_state.md R47). -/
def unspecifiedNow (s : State) (r : Reg) : Bool :=
  match s.seq with
  | .idle => false
  | .running i _ => multiStepTarget i r

/-- `MemRead(P_BASE + off, 4)` and the refused reads of R62: the value, and the state after. -/
def readOffset (off : Nat) (width : AccessWidth) (s : State) : Word × State :=
  if admitted off width then
    match regAt off with
    | none => (0#32, s)
    | some r => if unspecifiedNow s r then drawReadValue s else (regValue s r, s)
  else (0#32, raiseError .badAccess s)

/-! ### Writes (20_memory.md R65) -/

/-- Command issue (R66): refused while BUSY = 1, an illegal word recorded, a legal command accepted. -/
def issue (v : Word) (s : State) : State :=
  if s.busy then raiseError .busyWrite s
  else
    match decode v with
    | none => raiseError .illegalCmd s
    | some i => accept i s

/-- A write that is refused while BUSY = 1 (R67). -/
def unlessBusy (write : State → State) (s : State) : State :=
  if s.busy then raiseError .busyWrite s else write s

/-- The admitted write of `v` to a register (R65); a read-only register ignores it (10_state.md R21). -/
def writeReg (r : Reg) (v : Word) (s : State) : State :=
  match r with
  | .cmd => issue v s
  | .error => clearError s
  | .rom k => unlessBusy (fun s => { s with rom := unpackWord s.rom (4 * k.val) v }) s
  | .ntpRxLen => deliver (v.extractLsb' 0 16) s
  | .buf k => unlessBusy (fun s => { s with buf := unpackWord s.buf (4 * k.val) v }) s
  | .ntpRx k => { s with rx := unpackWord s.rx (4 * k.val) v }
  | .status => s
  | .crcResult => s
  | .searchState => s
  | .srom _ => s
  | .ntpSeconds => s
  | .ntpRaw => s
  | .ntpElapsed => s
  | .ntpTx _ => s

/-- `MemWrite(P_BASE + off, 4, v)` and the refused writes of R62. -/
def writeOffset (off : Nat) (width : AccessWidth) (v : Word) (s : State) : State :=
  if admitted off width then
    match regAt off with
    | none => s
    | some r => writeReg r v s
  else raiseError .badAccess s

end Sys2Proof.Machine
end

