-- ==== Sys2Proof/Machine/Agents.lean ====
section
/-! DEFINITION. The steps of the agents (00_scope.md R7): the host's program (30_encoding.md R99), the reset input
(70_reset_and_hazards.md R250), and whose turn it is. -/

namespace Sys2Proof.Machine

/-! ### The host's statements -/

/-- `rd`: an access outside the window is no access to the block (20_memory.md R61; log entry 13); inside it the value
read is the statement's result. -/
def hostRead (addr : Nat) (width : AccessWidth) (s : State) : Host.Outcome State Fault Refusal :=
  match windowOffset addr with
  | none => .next s
  | some off =>
    if s.inReset then .fault .hostAccessInReset
    else .next { (readOffset off width s).2 with readLog := s.readLog ++ [(readOffset off width s).1] }

/-- `wr`. -/
def hostWrite (addr : Nat) (width : AccessWidth) (v : Word) (s : State) : Host.Outcome State Fault Refusal :=
  match windowOffset addr with
  | none => .next s
  | some off => if s.inReset then .fault .hostAccessInReset else .next (writeOffset off width v s)

/-- One round of a waiting loop: a read of STATUS, logged; the loop `again` stays in the program until `finished`. -/
def hostPoll (again : HostStmt) (finished : Bool) (s : State) : Host.Outcome State Fault Refusal :=
  if s.inReset then .fault .hostAccessInReset
  else
    .next { s with
      readLog := s.readLog ++ [statusWord s]
      program := if finished then s.program else again :: s.program }

/-- NTP_STATE is DONE or TIMEDOUT, what WAIT_NTP waits for. -/
def ntpOver (s : State) : Bool := s.ntpState == .done || s.ntpState == .timedOut

/-- The write of `w` to CMD and the run of the command it decodes to (20_memory.md R66; log entry 3). -/
def runCommandWord (w : Word) (s : State) : Host.Outcome State Fault Refusal :=
  if s.inReset then .fault .hostAccessInReset
  else if s.busy then .next (raiseError .busyWrite s)
  else
    match decode w with
    | none => .next (raiseError .illegalCmd s)
    | some i => exec i s

/-- One statement of the host, taken off its program already. -/
def hostStmtStep (stmt : HostStmt) (s : State) : Host.Outcome State Fault Refusal :=
  match stmt with
  | .rd addr width => hostRead addr width s
  | .wr addr width v => hostWrite addr width v s
  | .waitIdle => hostPoll .waitIdle (!s.busy) s
  | .waitNtp => hostPoll .waitNtp (ntpOver s) s
  | .runCommand w => runCommandWord w s

/-- The Host agent's step: the next statement of its program, if there is one. -/
def hostStep (s : State) : Host.Outcome State Fault Refusal :=
  match s.program with
  | [] => .next s
  | stmt :: rest => hostStmtStep stmt { s with program := rest }

/-! ### The reset input (70_reset_and_hazards.md R250) -/

/-- Every piece of the block's state at its reset value, the reset input active; the agents' own data stays. -/
def resetBlock (s : State) : State :=
  { State.reset with
    inReset := true
    program := s.program
    schedule := s.schedule
    busAnswers := s.busAnswers
    draws := s.draws
    readLog := s.readLog }

/-- The reset input is driven to `level`. -/
def resetPinStep (level : Bool) (s : State) : State :=
  if level = Config.resetActive then resetBlock s else { s with inReset := false }

/-! ### Whose turn it is -/

/-- The step of the agent whose turn it is; where that agent is not enabled nothing changes (log entry 1). -/
def turnStep (t : Turn) (s : State) : Host.Outcome State Fault Refusal :=
  match t with
  | .host => hostStep s
  | .sequencer => .next (sequencerStep s)
  | .ntpTimer => .next (ntpTimerStep s)
  | .resetPin level => .next (resetPinStep level s)

/-- The host's next statement would not just wait for the NTP window. -/
def hostReady (s : State) : Bool :=
  match s.program with
  | [] => false
  | .waitNtp :: _ => ntpOver s
  | _ :: _ => true

/-- Whose turn it is where the schedule is empty: the Sequencer, then the host, then the NtpTimer; nobody's while the
reset input is active or where no agent is enabled (log entry 2). -/
def defaultTurn (s : State) : Option Turn :=
  if s.inReset then none
  else if s.seq ≠ .idle then some .sequencer
  else if hostReady s then some .host
  else if s.ntpState = .awaiting then some .ntpTimer
  else if s.program ≠ [] then some .host
  else none

end Sys2Proof.Machine
end

