-- ==== Sys2Proof/Machine/Step.lean ====
section
/-! DEFINITION. One step of the machine: the step of the agent whose turn it is (00_scope.md R7, 20_memory.md R74). -/

namespace Sys2Proof.Machine

/-- One step: the schedule's next turn, or the default turn where the schedule is empty; the machine rests where no
agent is enabled. -/
def step (s : State) : Host.Outcome State Fault Refusal :=
  match s.schedule with
  | t :: rest => turnStep t { s with schedule := rest }
  | [] =>
    match defaultTurn s with
    | some t => turnStep t s
    | none => .next s

/-- `s` with the command of the `nbits` low bits of `w` as the host's next statement and the host's turn next: a
command is run by writing its word to CMD (20_memory.md R78), so this is where `step` gets its next command. -/
def State.withFetchWord (s : State) (nbits w : Nat) : State :=
  { s with
    program := .runCommand (BitVec.ofNat 32 (w % 2 ^ nbits)) :: s.program
    schedule := .host :: s.schedule }

end Sys2Proof.Machine
end

