-- ==== Sys2Proof/Machine/HostProgram.lean ====
section
/-! DEFINITION. The statements a host program is written in, as the spec names them (30_encoding.md R99), the host's
part of an NTP exchange (43_ntp.md R195) and the end of a run (70_reset_and_hazards.md R273). -/

namespace Sys2Proof.Machine.HostProgram

/-- `wr REG, v`. -/
def wr (r : Reg) (v : Word) : HostStmt := .wr (Config.pBase + r.offset) .w32 v

/-- `rd REG`. -/
def rd (r : Reg) : HostStmt := .rd (Config.pBase + r.offset) .w32

/-- `SET_ROM r0..r7`. -/
def setRom (rom : Vector Byte Config.romBytes) : List HostStmt :=
  [wr (.rom 0) (packWord rom 0), wr (.rom 1) (packWord rom 4)]

/-- `DELIVER len`. -/
def deliver (len : BitVec 16) : HostStmt := wr .ntpRxLen (len.setWidth 32)

/-- A command mnemonic as a statement: `wr CMD, <word>` (30_encoding.md R98). -/
def command (i : Instr) : HostStmt := wr .cmd (encode i)

/-- Reading the request frame, NTP_TX0 to NTP_TX11 in order (43_ntp.md R194). -/
def readRequest : List HostStmt := (List.finRange 12).map fun k => rd (.ntpTx k)

/-! ### Handing over a datagram (43_ntp.md R195) -/

/-- RX with the datagram's first min(len, 48) bytes in arrival order; the bytes beyond a short datagram keep their
values, bytes beyond the 48th are not stored. -/
def rxWith (rx : Vector Byte Config.ntpFrameBytes) (datagram : List Byte) : Vector Byte Config.ntpFrameBytes :=
  Vector.ofFn fun i => datagram[i.val]?.getD (byteAt rx i.val)

/-- Handing the block a received datagram while RX holds `rx`: the words of RX the datagram reaches, then its length.
The word that the end of a short datagram cuts is written back with its other bytes as they stand (log entry 23). -/
def handOver (rx : Vector Byte Config.ntpFrameBytes) (datagram : List Byte) : List HostStmt :=
  ((List.finRange 12).filter fun k => decide (4 * k.val < datagram.length)).map
      (fun k => wr (.ntpRx k) (packWord (rxWith rx datagram) (4 * k.val))) ++
    [deliver (BitVec.ofNat 16 datagram.length)]

/-! ### The environment (30_encoding.md R99) -/

/-- The environment statement `ticks m`: m turns of the NtpTimer (30_encoding.md R99). -/
def ticks (m : Nat) : List Turn := List.replicate m .ntpTimer

/-! ### The end of a run (70_reset_and_hazards.md R273; log entry 24) -/

/-- The statement the next step executes, where the host's turn is next. -/
def nextStmt (s : State) : Option HostStmt :=
  match s.schedule with
  | t :: _ => if t = .host then s.program.head? else none
  | [] => if defaultTurn s = some .host then s.program.head? else none

/-- The word a statement issues: the run of a word, or its 32-bit write to CMD (20_memory.md R66). -/
def issuedWord : HostStmt → Option Word
  | .runCommand w => some w
  | .wr addr width v => if windowOffset addr = some 0x00 ∧ width = .w32 then some v else none
  | .rd _ _ => none
  | .waitIdle => none
  | .waitNtp => none

/-- The next step is the host's and its statement an NTP_START that is accepted: it starts an NTP exchange. -/
def startsExchange (s : State) : Bool :=
  !s.inReset && !s.busy && decide (((nextStmt s).bind issuedWord).bind decode = some .ntpStart)

/-- At most `n` steps until the host's program is done: how many of the `n` are left, whether the program started an
NTP exchange (`started` says whether it had before), and the state then. -/
def runUntilDone : Nat → Bool → State → Option (Nat × Bool × State)
  | 0, started, s => if s.program.isEmpty then some (0, started, s) else none
  | n + 1, started, s =>
    if s.program.isEmpty then some (n + 1, started, s)
    else
      match step s with
      | .next t => runUntilDone n (started || startsExchange s) t
      | .fault _ => none
      | .refused _ => none

/-- The state in which the run of the host program `prog` from `s` ends, if it ends within `n` steps: the last
statement executed, then a WAIT_IDLE returned, and a WAIT_NTP too if the program started an NTP exchange. -/
def endState (prog : List HostStmt) (n : Nat) (s : State) : Option State :=
  match runUntilDone n false { s with program := prog ++ [.waitIdle] } with
  | none => none
  | some (_, false, t) => some t
  | some (left, true, t) => (runUntilDone left true { t with program := [.waitNtp] }).map fun r => r.2.2

end Sys2Proof.Machine.HostProgram
end

