-- ==== Sys2Proof/Machine/ReferenceBus.lean ====
section
/-! DEFINITION. The reference population of 41_onewire.md R133: a premise some claims take about the Bus oracle's
answers, no law of the block and no part of `step` (R132; log entry 14). -/

namespace Sys2Proof.Machine.ReferenceBus

/-- A device's 64-bit ROM id as its 8 bytes; bit `n - 1` in bus order is search position `n` (20_memory.md R71). -/
abbrev RomId := Vector Byte Config.romBytes

/-- Where the bus stands in the events so far. -/
inductive Phase where
  /-- Outside a search: the reference population gives no answers here (R133). -/
  | quiet
  /-- After a reset pulse: the bits of the byte written since, first one first. -/
  | commandByte (bits : List Bool)
  /-- In a search, the first read slot of bit `m` comes next; `active` are the participating devices. -/
  | first (m : Nat) (active : List RomId)
  | second (m : Nat) (active : List RomId)
  | direction (m : Nat) (active : List RomId)
  deriving DecidableEq, Repr

/-- Wired-AND of bit `m` over the active devices; 1 when no device is active (R133). -/
def wiredAnd (active : List RomId) (m : Nat) : Bool := active.all fun d => arrayBit d m

/-- Wired-AND of the complement of bit `m`. -/
def wiredAndNot (active : List RomId) (m : Nat) : Bool := active.all fun d => !arrayBit d m

/-- The bits of the search byte in bus order (42_search.md R162). -/
def searchByteBits : List Bool := (List.range 8).map fun j => Config.owSearchRom.getLsbD j

/-- The phase after an event, `none` where the event holds an answer the population `devices` does not give (R133). -/
def next (devices : List RomId) (p : Phase) (e : BusEvent) : Option Phase :=
  match e, p with
  | .reset presence, _ => if presence = !devices.isEmpty then some (.commandByte []) else none
  | .spuOn, p => some p
  | .spuOff, p => some p
  | .w b, .commandByte bits =>
    if bits.length + 1 < 8 then some (.commandByte (bits ++ [b]))
    else if bits ++ [b] = searchByteBits then some (.first 0 devices)
    else some .quiet
  | .r a, .first m active => if a = wiredAnd active m then some (.second m active) else none
  | .r c, .second m active => if c = wiredAndNot active m then some (.direction m active) else none
  | .w d, .direction m active =>
    if m + 1 < 64 then some (.first (m + 1) (active.filter fun x => arrayBit x m == d)) else some .quiet
  | .r _, .quiet => some .quiet
  | .w _, .quiet => some .quiet
  | .r _, .commandByte _ => some .quiet
  | .w _, .first _ _ => some .quiet
  | .w _, .second _ _ => some .quiet
  | .r _, .direction _ _ => some .quiet

/-- The phase after a list of events. -/
def follow (devices : List RomId) : Phase → List BusEvent → Option Phase
  | p, [] => some p
  | p, e :: rest =>
    match next devices p e with
    | none => none
    | some p' => follow devices p' rest

/-- Every answer in `events` is the one the population gives. -/
def answersAs (devices : List RomId) (events : List BusEvent) : Bool := (follow devices .quiet events).isSome

end Sys2Proof.Machine.ReferenceBus
end

