-- ==== Sys2Proof/Safety.lean ====
section
/-! DEFINITION. What counts as a safe run, in the terms claims use: the invariant of the machine, the error kinds of
60_exceptions.md R226, the Bus oracle's answers by index, a command's effect written as one pass of the spec's
pseudocode (for claims that compare it with the steps), and what the bus history says of the block. -/

namespace Sys2Proof.Machine

/-- The next state of an outcome, if it is one. -/
def outcomeState (o : Host.Outcome State Fault Refusal) : Option State :=
  match o with
  | .next s => some s
  | .fault _ => none
  | .refused _ => none

/-! ### The source's error kinds as observables (60_exceptions.md R226) -/

/-- BusAbsence after an OW_RESET. -/
def busAbsence (s : State) : Bool := !s.presence
/-- BusAbsence after a SRCH_NEXT. -/
def searchBusAbsence (s : State) : Bool := !s.found && !s.presence
/-- AddressCorrupt after `CRC.ROM 7`, FrameCorrupt after `CRC.BUF 8`. -/
def checkFailed (s : State) : Bool := !s.crcMatch
/-- NtpTimeout. -/
def ntpTimeout (s : State) : Bool := s.ntpState == .timedOut

/-- A fresh search state (42_search.md R161). -/
def freshSearch (s : State) : Bool := decide (s.lastDiscrepancy = 0) && !s.lastDevice

/-- The block can take a command: no command runs and the reset input is released. -/
def Ready (s : State) : Prop := s.inReset = false ∧ s.busy = false

/-! ### The invariant -/

/-- The micro-operation states a command reaches (log entry 6). -/
def microOk : Instr → MicroState → Bool
  | _, .start => true
  | .owSelect, .writeSlot j => decide (1 ≤ j ∧ j < 72)
  | .owWrite _ _, .writeSlot j => decide (1 ≤ j ∧ j < 8)
  | .owWrite _ spu, .takeSpu => spu
  | .owRead n, .readSlot j _ => decide (1 ≤ j ∧ j < 8 * n)
  | .srchNext, .searchByte j => decide (j < 8)
  | .srchNext, .searchFirst n lastZero => decide (1 ≤ n ∧ n ≤ 64 ∧ lastZero < n)
  | .srchNext, .searchSecond n lastZero _ => decide (1 ≤ n ∧ n ≤ 64 ∧ lastZero < n)
  | .srchNext, .searchWrite n lastZero _ => decide (1 ≤ n ∧ n ≤ 64 ∧ lastZero ≤ n)
  | _, _ => false

/-- What NTP_ELAPSED, NTP_RAW and NTP_SECONDS hold in each NTP state (43_ntp.md R193, R196, R197, R199). -/
def ntpConsistent (s : State) : Prop :=
  match s.ntpState with
  | .idle => s.ntpElapsed = 0#16 ∧ s.ntpRaw = 0#32 ∧ s.ntpSeconds = 0#32
  | .awaiting => s.ntpElapsed.toNat < 1500 ∧ s.ntpRaw = 0#32 ∧ s.ntpSeconds = 0#32
  | .done => s.ntpElapsed.toNat < 1500 ∧ s.ntpSeconds = s.ntpRaw - 2208988800#32
  | .timedOut => s.ntpElapsed.toNat = 1500 ∧ s.ntpRaw = 0#32 ∧ s.ntpSeconds = 0#32

/-- The invariant every step keeps. -/
structure State.Inv (s : State) : Prop where
  /-- `seq = Idle` exactly when BUSY = 0 (10_state.md R42). -/
  busy_iff : s.busy = true ↔ s.seq ≠ .idle
  /-- SPU is 1 exactly while the line is in `Spu` (10_state.md R28). -/
  spu_iff : s.spu = true ↔ s.line = .spu
  /-- A running command is well formed and in a micro-operation state of its own. -/
  running_ok : ∀ i k, s.seq = .running i k → i.wf = true ∧ microOk i k = true
  /-- Past the prelude the line is released (41_onewire.md R135). -/
  started_released : ∀ i k, s.seq = .running i k → k ≠ .start → s.line = .released
  /-- A search under way began with LAST_DEVICE = 0 (42_search.md R166). -/
  searching_open : ∀ k, s.seq = .running .srchNext k → k ≠ .start → s.lastDevice = false
  /-- LAST_DISCREPANCY is 0 to 64 (10_state.md R33). -/
  discrepancy_le : s.lastDiscrepancy ≤ 64
  /-- After the last device no branch is left (42_search.md R165). -/
  lastDevice_zero : s.lastDevice = true → s.lastDiscrepancy = 0
  /-- MORE is set only while CODE is non-zero (10_state.md R30). -/
  more_needs_code : s.errCode = .none → s.errMore = false
  /-- `tick_div` is 0 to `P_TICKS_PER_MS - 1` (10_state.md R44). -/
  tickDiv_lt : s.tickDiv < Config.ticksPerMs
  /-- The NTP registers fit the NTP state. -/
  ntp_ok : ntpConsistent s
  /-- While the reset input is active every piece of the block's state holds its reset value (70_reset_and_hazards.md
  R250). -/
  reset_held : s.inReset = true → s = resetBlock s

/-! ### The Bus oracle's answers by index -/

/-- The `j`-th answer the Bus oracle gives from here on (41_onewire.md R132). -/
def State.answer (s : State) (j : Nat) : Bool :=
  match s.busAnswers[j]? with
  | some b => b
  | none => Config.freeBusAnswer (s.draws + (j - s.busAnswers.length))

/-- The state after `m` answers were drawn. -/
def State.afterAnswers (s : State) (m : Nat) : State :=
  { s with busAnswers := s.busAnswers.drop m, draws := s.draws + (m - s.busAnswers.length) }

/-! ### A command's effect in one pass -/

/-- The state after the prelude `release_spu()` of a bus-driving command (41_onewire.md R135). -/
def afterPrelude (s : State) : State :=
  if s.line = .spu then { s with hist := s.hist ++ [.spuOff], line := .released, spu := false } else s

/-- The write slots of a list of bytes: each byte least significant bit first (41_onewire.md R134). -/
def writeEvents (bytes : List Byte) : List BusEvent :=
  bytes.flatMap fun v => (List.range 8).map fun i => .w (v.getLsbD i)

/-- What the loop of 42_search.md R166 computes. -/
structure SearchRun where
  ok : Bool
  lastZero : Nat
  srom : Vector Byte Config.romBytes
  /-- The events of its slots, in order. -/
  events : List BusEvent
  /-- How many answers it drew. -/
  drawn : Nat

/-- The `while` loop of R166 with `todo` positions left, at position `n`: `L` is LAST_DISCREPANCY and `ans n` and
`ans' n` are the answers to the two read slots of position `n`. -/
def searchLoop (L : Nat) (ans ans' : Nat → Bool) :
    (todo n lastZero : Nat) → (srom : Vector Byte Config.romBytes) → SearchRun
  | 0, _, lastZero, srom => ⟨true, lastZero, srom, [], 0⟩
  | todo + 1, n, lastZero, srom =>
    let a := ans n
    let c := ans' n
    if a = true ∧ c = true then ⟨false, lastZero, srom, [.r a, .r c], 2⟩
    else
      let d := if a ≠ c then a else if n < L then arrayBit srom (n - 1) else decide (n = L)
      let lastZero' := if a = c ∧ d = false then n else lastZero
      let rest := searchLoop L ans ans' todo (n + 1) lastZero' (setArrayBit srom (n - 1) d)
      ⟨rest.ok, rest.lastZero, rest.srom, [.r a, .r c, .w d] ++ rest.events, 2 + rest.drawn⟩

/-- The loop of a SRCH_NEXT from `s` after a pulse with presence: answer 0 is the presence, answers `2n - 1` and `2n`
are those of position `n`. -/
def searchRun (s : State) : SearchRun :=
  searchLoop s.lastDiscrepancy (fun n => s.answer (2 * n - 1)) (fun n => s.answer (2 * n)) 64 1 0 s.srom

/-- The end of a SRCH_NEXT, written as R166 writes it: `ok` and the SROM decide `None` or `Address`. -/
def searchOutcome (ok : Bool) (s : State) : State :=
  if ok = false ∨ byteAt s.srom 0 = 0#8 then
    { s with lastDiscrepancy := 0, lastDevice := false, found := false, busy := false, seq := .idle }
  else { s with rom := s.srom, found := true, busy := false, seq := .idle }

/-- The whole effect of SRCH_NEXT from `s`, by the pseudocode of R166. -/
def searchEffect (s : State) : State :=
  if s.lastDevice = true then searchOutcome false s
  else if s.answer 0 = false then
    searchOutcome false
      { (afterPrelude s).afterAnswers 1 with
        presence := false
        hist := (afterPrelude s).hist ++ [.reset false] }
  else
    searchOutcome (searchRun s).ok
      { (afterPrelude s).afterAnswers (1 + (searchRun s).drawn) with
        presence := true
        hist := (afterPrelude s).hist ++ [.reset true] ++ writeEvents [0xF0#8] ++ (searchRun s).events
        srom := (searchRun s).srom
        lastDiscrepancy := if (searchRun s).ok then (searchRun s).lastZero else s.lastDiscrepancy
        lastDevice := (searchRun s).ok && decide ((searchRun s).lastZero = 0) }

/-! ### What the bus history says -/

/-- The line after events: SpuOn takes the strong pull-up, SpuOff releases it (10_state.md R43). -/
def lineAfter (l : LineState) (events : List BusEvent) : LineState :=
  events.foldl (fun l e => match e with | .spuOn => .spu | .spuOff => .released | _ => l) l

/-- PRESENCE after events: the sample of the most recent reset pulse (10_state.md R25). -/
def presenceAfter (p : Bool) (events : List BusEvent) : Bool :=
  events.foldl (fun p e => match e with | .reset q => q | _ => p) p

/-! ### Search passes -/

/-- The state after one SRCH_NEXT. -/
def callSrchNext (s : State) : State := (outcomeState (exec .srchNext s)).getD s

/-- The state after `k` SRCH_NEXT commands in succession. -/
def callsSrchNext : Nat → State → State
  | 0, s => s
  | k + 1, s => callsSrchNext k (callSrchNext s)

/-- The order of 42_search.md R172: the first bit in bus order in which two ids differ is 0 in the smaller one. -/
def idBefore (d e : ReferenceBus.RomId) : Prop :=
  ∃ m, m < 64 ∧ (∀ j, j < m → arrayBit d j = arrayBit e j) ∧ arrayBit d m = false ∧ arrayBit e m = true

end Sys2Proof.Machine
end

