-- ==== Sys2Proof/Certificates/Slice0/Obligations.lean ====
section
/-! DEFINITION. The statements for the provers. Each docstring names the rules of spec/ it formalises. -/

open Sys2Proof Sys2Proof.Machine

/-! ### Encoding (30_encoding.md) -/

/-- Words written out from the encodings of R98 and R92 decode to the commands they stand for. -/
def Obligations.SampleWordsDecode : Prop :=
  decode 0x00000001#32 = some .owReset ∧
  decode 0x00000002#32 = some .owSelect ∧
  decode 0x00014403#32 = some (.owWrite 0x44#8 true) ∧
  decode 0x00000904#32 = some (.owRead 9) ∧
  decode 0x00000010#32 = some .srchNext ∧
  decode 0x00000011#32 = some .srchReset ∧
  decode 0x00020720#32 = some (.crc .rom 7) ∧
  decode 0x00001020#32 = some (.crc .buf 16) ∧
  decode 0x00000030#32 = some .ntpStart

/-- R98: the word of every command of the assembler syntax. -/
def Obligations.EncodeGivesTheAssemblerWords : Prop :=
  encode .owReset = 0x00000001#32 ∧
  encode .owSelect = 0x00000002#32 ∧
  (∀ b : Byte, encode (.owWrite b false) = (0x00000003#32 ||| (b.setWidth 32 <<< 8))) ∧
  (∀ b : Byte, encode (.owWrite b true) = (0x00010003#32 ||| (b.setWidth 32 <<< 8))) ∧
  (∀ n, n ≤ 16 → encode (.owRead n) = (0x00000004#32 ||| (BitVec.ofNat 32 n <<< 8))) ∧
  encode .srchNext = 0x00000010#32 ∧
  encode .srchReset = 0x00000011#32 ∧
  (∀ len, len ≤ 16 → encode (.crc .buf len) = (0x00000020#32 ||| (BitVec.ofNat 32 len <<< 8))) ∧
  (∀ len, len ≤ 8 → encode (.crc .rom len) = (0x00020020#32 ||| (BitVec.ofNat 32 len <<< 8))) ∧
  encode .ntpStart = 0x00000030#32

/-- R95: decoding the word of a well-formed command gives the command back, at every operand value. -/
def Obligations.DecodeOfEncodeIsIdentity : Prop :=
  ∀ i : Instr, i.wf = true → decode (encode i) = some i

/-- R95: a word that decodes to a command is that command's own word, and the command is well formed: every legal word
has one command and every command one word. -/
def Obligations.DecodedWordIsTheEncodedWord : Prop :=
  ∀ (w : Word) (i : Instr), decode w = some i → i.wf = true ∧ encode i = w

/-- R92: a word is legal exactly when one row of the table holds, match, mask and ARG range. -/
def Obligations.LegalWordsAreTheTableRows : Prop :=
  ∀ w : Word,
    (decode w).isSome = true ↔
      (w &&& 0xFFFFFFFF#32 = 0x00000001#32 ∨
       w &&& 0xFFFFFFFF#32 = 0x00000002#32 ∨
       w &&& 0xFFFE00FF#32 = 0x00000003#32 ∨
       (w &&& 0xFFFF00FF#32 = 0x00000004#32 ∧ 1 ≤ (w.extractLsb' 8 8).toNat ∧ (w.extractLsb' 8 8).toNat ≤ 16) ∨
       w &&& 0xFFFFFFFF#32 = 0x00000010#32 ∨
       w &&& 0xFFFFFFFF#32 = 0x00000011#32 ∨
       (w &&& 0xFFFD00FF#32 = 0x00000020#32 ∧
         (w.extractLsb' 8 8).toNat ≤ (if w.getLsbD 17 then 8 else 16)) ∨
       w &&& 0xFFFFFFFF#32 = 0x00000030#32)

/-! ### The host's accesses (10_state.md, 20_memory.md, 60_exceptions.md) -/

/-- R66: the three outcomes of a write of `v` to CMD: refused while BUSY = 1, an illegal word recorded with nothing
else changed, a legal command accepted. -/
def Obligations.CommandIssueOutcomes : Prop :=
  ∀ (v : Word) (s : State),
    (s.busy = true → writeOffset 0x00 .w32 v s = raiseError .busyWrite s) ∧
    (s.busy = false → decode v = none → writeOffset 0x00 .w32 v s = raiseError .illegalCmd s) ∧
    (∀ i, s.busy = false → decode v = some i →
      writeOffset 0x00 .w32 v s = { s with busy := true, seq := .running i .start })

/-- R96: an illegal word written to CMD while no command runs raises ILLEGAL_CMD and has no other effect, and the
all-zero word is illegal. -/
def Obligations.IllegalWordOnlyRaisesAnError : Prop :=
  decode 0x00000000#32 = none ∧
  ∀ (v : Word) (s : State), s.busy = false → decode v = none →
    ∃ t, writeOffset 0x00 .w32 v s = t ∧ t.busy = false ∧
      t = { s with
        errCode := if s.errCode = .none then .illegalCmd else s.errCode
        errMore := if s.errCode = .none then s.errMore else true }

/-- R222: raising an error sets CODE where it is 0x00 and MORE otherwise, and changes nothing else. -/
def Obligations.RaisingKeepsTheFirstError : Prop :=
  ∀ (code : ErrorCode) (s : State),
    raiseError code s =
      { s with
        errCode := if s.errCode = .none then code else s.errCode
        errMore := if s.errCode = .none then s.errMore else true } ∧
    statusWord (raiseError code s) = statusWord s

/-- R227, R30: a write of any value to ERROR clears CODE and MORE and changes nothing else, whatever BUSY is; an error
raised after it is recorded as a first error. -/
def Obligations.WritingErrorClearsIt : Prop :=
  ∀ (v : Word) (s : State),
    writeOffset 0x08 .w32 v s = { s with errCode := .none, errMore := false } ∧
    ∀ code, raiseError code (writeOffset 0x08 .w32 v s) = { s with errCode := code, errMore := false }

/-- R62: an access of another width, or at an offset that is not a multiple of 4, raises BAD_ACCESS; a bad write
changes nothing else, a bad read returns 0. -/
def Obligations.BadAccessIsRefused : Prop :=
  ∀ (off : Nat) (width : AccessWidth) (v : Word) (s : State), (off % 4 ≠ 0 ∨ width ≠ .w32) →
    writeOffset off width v s = raiseError .badAccess s ∧
    readOffset off width s = (0x00000000#32, raiseError .badAccess s)

/-- R67: while BUSY = 1 a write of CMD, ROM0, ROM1 or BUF0-BUF3 is refused with BUSY_WRITE. -/
def Obligations.BusyRefusesCommandRomAndBufWrites : Prop :=
  ∀ (off : Nat) (v : Word) (s : State), s.busy = true →
    (off = 0x00 ∨ off = 0x10 ∨ off = 0x14 ∨ off = 0x40 ∨ off = 0x44 ∨ off = 0x48 ∨ off = 0x4C) →
    writeOffset off .w32 v s = raiseError .busyWrite s

/-- R223: one access raises at most one error, BAD_ACCESS before BUSY_WRITE before ILLEGAL_CMD. -/
def Obligations.OneErrorPerAccessInOrder : Prop :=
  ∀ (off : Nat) (width : AccessWidth) (v : Word) (s : State),
    let busyReg := off = 0x00 ∨ off = 0x10 ∨ off = 0x14 ∨ (0x40 ≤ off ∧ off ≤ 0x4C)
    let bad := off % 4 ≠ 0 ∨ width ≠ .w32
    (bad → writeOffset off width v s = raiseError .badAccess s ∧
      (readOffset off width s).2 = raiseError .badAccess s) ∧
    (¬ bad → s.busy = true → busyReg → writeOffset off width v s = raiseError .busyWrite s) ∧
    (¬ bad → s.busy = false → off = 0x00 → decode v = none →
      writeOffset off width v s = raiseError .illegalCmd s) ∧
    (¬ bad → off ≠ 0x08 → ¬ (s.busy = true ∧ busyReg) → ¬ (off = 0x00 ∧ decode v = none) →
      (writeOffset off width v s).errCode = s.errCode ∧ (writeOffset off width v s).errMore = s.errMore) ∧
    (¬ bad → (readOffset off width s).2.errCode = s.errCode ∧ (readOffset off width s).2.errMore = s.errMore)

/-- R224: only Host steps raise errors: the Sequencer's and the NtpTimer's steps leave ERROR alone. -/
def Obligations.OnlyHostStepsRaiseErrors : Prop :=
  ∀ s : State,
    (sequencerStep s).errCode = s.errCode ∧ (sequencerStep s).errMore = s.errMore ∧
    (ntpTimerStep s).errCode = s.errCode ∧ (ntpTimerStep s).errMore = s.errMore

/-- R20: the register map: the register at each offset of R20's table, each register's own offset, and every other
multiple of 4 in the window in one of the four reserved ranges. -/
def Obligations.RegisterMapIsExact : Prop :=
  (regAt 0x00 = some .cmd ∧ regAt 0x04 = some .status ∧ regAt 0x08 = some .error ∧ regAt 0x0C = some .crcResult ∧
    regAt 0x10 = some (.rom 0) ∧ regAt 0x14 = some (.rom 1) ∧ regAt 0x18 = some .searchState ∧
    regAt 0x1C = some (.srom 0) ∧ regAt 0x20 = some (.srom 1) ∧ regAt 0x24 = some .ntpSeconds ∧
    regAt 0x28 = some .ntpRaw ∧ regAt 0x2C = some .ntpElapsed ∧ regAt 0x30 = some .ntpRxLen ∧
    (∀ k : Fin 4, regAt (0x40 + 4 * k.val) = some (.buf k)) ∧
    (∀ k : Fin 12, regAt (0x80 + 4 * k.val) = some (.ntpRx k)) ∧
    (∀ k : Fin 12, regAt (0xC0 + 4 * k.val) = some (.ntpTx k))) ∧
  (∀ r : Reg, r.offset % 4 = 0 ∧ r.offset < 256 ∧ regAt r.offset = some r) ∧
  ∀ off, off % 4 = 0 → off < 256 →
    ((∃ r : Reg, regAt off = some r ∧ r.offset = off) ∨
      (regAt off = none ∧
        ((0x34 ≤ off ∧ off ≤ 0x3C) ∨ (0x50 ≤ off ∧ off ≤ 0x7C) ∨ (0xB0 ≤ off ∧ off ≤ 0xBC) ∨
          (0xF0 ≤ off ∧ off ≤ 0xFC))))

/-- R21: reserved offsets read 0 and ignore writes, read-only registers ignore writes, neither records an error, and
reserved bits read 0. -/
def Obligations.ReservedAndReadOnlyIgnoreWrites : Prop :=
  (∀ (off : Nat) (v : Word) (s : State), off % 4 = 0 →
    ((0x34 ≤ off ∧ off ≤ 0x3C) ∨ (0x50 ≤ off ∧ off ≤ 0x7C) ∨ (0xB0 ≤ off ∧ off ≤ 0xBC) ∨
      (0xF0 ≤ off ∧ off ≤ 0xFC)) →
    readOffset off .w32 s = (0x00000000#32, s) ∧ writeOffset off .w32 v s = s) ∧
  (∀ (off : Nat) (v : Word) (s : State), off % 4 = 0 →
    (off = 0x04 ∨ off = 0x0C ∨ (0x18 ≤ off ∧ off ≤ 0x2C) ∨ (0xC0 ≤ off ∧ off ≤ 0xEC)) →
    writeOffset off .w32 v s = s) ∧
  (∀ (s : State) (j : Nat),
    (((5 ≤ j ∧ j ≤ 7) ∨ 10 ≤ j) → (statusWord s).getLsbD j = false) ∧
    (9 ≤ j → (errorWord s).getLsbD j = false) ∧
    ((j = 7 ∨ 9 ≤ j) → (searchStateWord s).getLsbD j = false) ∧
    (8 ≤ j → (regValue s .crcResult).getLsbD j = false) ∧
    (16 ≤ j → (regValue s .ntpElapsed).getLsbD j = false ∧ (regValue s .ntpRxLen).getLsbD j = false))

/-- R23: the bits of STATUS, and a read of it returns the current value of every field also while BUSY = 1. -/
def Obligations.StatusBitsAreTheFields : Prop :=
  ∀ s : State,
    (readOffset 0x04 .w32 s) = (statusWord s, s) ∧
    (statusWord s).getLsbD 0 = s.busy ∧
    (statusWord s).getLsbD 1 = s.presence ∧
    (statusWord s).getLsbD 2 = s.found ∧
    (statusWord s).getLsbD 3 = s.crcMatch ∧
    (statusWord s).getLsbD 4 = s.spu ∧
    (statusWord s).extractLsb' 8 2 =
      (match s.ntpState with | .idle => 0#2 | .awaiting => 1#2 | .done => 2#2 | .timedOut => 3#2)

/-- R63, R30, R220, R31 to R40: the value bits of each register as it is read, at its offset: ERROR.CODE and MORE,
CRC_RESULT, the NTP registers and NTP_RX in every state, ROM, SROM and SEARCH_STATE unless SRCH_NEXT runs, BUF unless
OW_READ runs. CMD reads 0. STATUS is StatusBitsAreTheFields's, NTP_TX RequestFrameIsConstant's. -/
def Obligations.RegistersReadTheirFields : Prop :=
  ∀ s : State,
    (readOffset 0x00 .w32 s).1 = 0x00000000#32 ∧
    (readOffset 0x08 .w32 s).1.extractLsb' 0 8 =
      (match s.errCode with
        | .none => 0x00#8 | .badAccess => 0x01#8 | .busyWrite => 0x02#8 | .illegalCmd => 0x03#8) ∧
    (readOffset 0x08 .w32 s).1.getLsbD 8 = s.errMore ∧
    (readOffset 0x0C .w32 s).1.extractLsb' 0 8 = s.crcResult ∧
    (readOffset 0x24 .w32 s).1 = s.ntpSeconds ∧
    (readOffset 0x28 .w32 s).1 = s.ntpRaw ∧
    (readOffset 0x2C .w32 s).1.extractLsb' 0 16 = s.ntpElapsed ∧
    (readOffset 0x30 .w32 s).1.extractLsb' 0 16 = s.ntpRxLen ∧
    (∀ k j, k < 12 → j < 4 →
      (readOffset (0x80 + 4 * k) .w32 s).1.extractLsb' (8 * j) 8 = byteAt s.rx (4 * k + j)) ∧
    ((∀ m, s.seq ≠ .running .srchNext m) →
      (∀ k j, k < 2 → j < 4 →
        (readOffset (0x10 + 4 * k) .w32 s).1.extractLsb' (8 * j) 8 = byteAt s.rom (4 * k + j) ∧
        (readOffset (0x1C + 4 * k) .w32 s).1.extractLsb' (8 * j) 8 = byteAt s.srom (4 * k + j)) ∧
      (s.lastDiscrepancy ≤ 64 →
        ((readOffset 0x18 .w32 s).1.extractLsb' 0 7).toNat = s.lastDiscrepancy) ∧
      (readOffset 0x18 .w32 s).1.getLsbD 8 = s.lastDevice) ∧
    ((∀ n m, s.seq ≠ .running (.owRead n) m) →
      ∀ k j, k < 4 → j < 4 →
        (readOffset (0x40 + 4 * k) .w32 s).1.extractLsb' (8 * j) 8 = byteAt s.buf (4 * k + j))

/-- R64, R65, R40: a word written to a BUF or ROM register with no command running, or to an NTP_RX register in every
state, is read back, byte `j` of the word is byte `4k + j` of the array, and no other field of the state changes. -/
def Obligations.ArrayWriteReadsBack : Prop :=
  ∀ (v : Word) (s : State),
    (s.busy = false → s.seq = .idle →
      (∀ k : Fin 4, ∃ buf', writeOffset (0x40 + 4 * k.val) .w32 v s = { s with buf := buf' } ∧
        (readOffset (0x40 + 4 * k.val) .w32 { s with buf := buf' }).1 = v ∧
        (∀ j, j < 4 → byteAt buf' (4 * k.val + j) = v.extractLsb' (8 * j) 8) ∧
        (∀ i, i < 4 * k.val ∨ 4 * k.val + 4 ≤ i → byteAt buf' i = byteAt s.buf i)) ∧
      (∀ k : Fin 2, ∃ rom', writeOffset (0x10 + 4 * k.val) .w32 v s = { s with rom := rom' } ∧
        (readOffset (0x10 + 4 * k.val) .w32 { s with rom := rom' }).1 = v ∧
        (∀ j, j < 4 → byteAt rom' (4 * k.val + j) = v.extractLsb' (8 * j) 8) ∧
        (∀ i, i < 4 * k.val ∨ 4 * k.val + 4 ≤ i → byteAt rom' i = byteAt s.rom i))) ∧
    (∀ k : Fin 12, ∃ rx', writeOffset (0x80 + 4 * k.val) .w32 v s = { s with rx := rx' } ∧
      (readOffset (0x80 + 4 * k.val) .w32 { s with rx := rx' }).1 = v ∧
      (∀ j, j < 4 → byteAt rx' (4 * k.val + j) = v.extractLsb' (8 * j) 8) ∧
      (∀ i, i < 4 * k.val ∨ 4 * k.val + 4 ≤ i → byteAt rx' i = byteAt s.rx i))

/-- R68, R63: an admitted read changes nothing but the count of free values drawn, a field of the model's own (log
entry 5). -/
def Obligations.ReadsHaveNoSideEffect : Prop :=
  ∀ (off : Nat) (s : State), off % 4 = 0 →
    (readOffset off .w32 s).2 = s ∨ (readOffset off .w32 s).2 = { s with draws := s.draws + 1 }

/-- R47: while OW_READ runs BUF reads, and while SRCH_NEXT runs ROM, SROM and SEARCH_STATE reads, return a free value;
every other read returns the current value, also while a command runs; accepting a command changes no register but
STATUS, so a single-step command's registers read their old values until it completes. -/
def Obligations.ReadsOfRunningTargetsAreFree : Prop :=
  (∀ (n : Nat) (k : MicroState) (b : Fin 4) (s : State), s.seq = .running (.owRead n) k →
    readOffset (0x40 + 4 * b.val) .w32 s = (Config.freeReadValue s.draws, { s with draws := s.draws + 1 })) ∧
  (∀ (k : MicroState) (off : Nat) (s : State), s.seq = .running .srchNext k →
    (off = 0x10 ∨ off = 0x14 ∨ off = 0x18 ∨ off = 0x1C ∨ off = 0x20) →
    readOffset off .w32 s = (Config.freeReadValue s.draws, { s with draws := s.draws + 1 })) ∧
  (∀ (r : Reg) (s : State),
    (∀ n k b, s.seq = .running (.owRead n) k → r ≠ .buf b) →
    (∀ k, s.seq = .running .srchNext k → (∀ b, r ≠ .rom b ∧ r ≠ .srom b) ∧ r ≠ .searchState) →
    readOffset r.offset .w32 s = (regValue s r, s)) ∧
  (∀ (i : Instr) (r : Reg) (s : State), r ≠ .status → regValue (accept i s) r = regValue s r)

/-! ### The CRC-8 generator (40_crc.md) -/

/-- R116: the CRC command: the CRC of the prefix in CRC_RESULT, the check in CRC_MATCH, and nothing else changed;
refused with BUSY_WRITE while BUSY = 1. -/
def Obligations.CrcCommandComputesAndChecks : Prop :=
  ∀ (src : CrcSource) (len : Nat) (s : State), s.inReset = false →
    (s.busy = true → exec (.crc src len) s = .next (raiseError .busyWrite s)) ∧
    (s.busy = false → len ≤ 16 → src = .buf →
      exec (.crc src len) s = .next { s with
        crcResult := crc8 (s.buf.toList.take len)
        crcMatch := decide (len < 16 ∧ byteAt s.buf len = crc8 (s.buf.toList.take len))
        busy := false
        seq := .idle }) ∧
    (s.busy = false → len ≤ 8 → src = .rom →
      exec (.crc src len) s = .next { s with
        crcResult := crc8 (s.rom.toList.take len)
        crcMatch := decide (len < 8 ∧ byteAt s.rom len = crc8 (s.rom.toList.take len))
        busy := false
        seq := .idle })

/-- R113: the corner cases of `crc8`. -/
def Obligations.CrcCornerCases : Prop :=
  crc8 [] = 0x00#8 ∧
  (∀ n, crc8 (List.replicate n 0x00#8) = 0x00#8) ∧
  (∀ b : Byte, crc8 [b] = crc8Step 0x00#8 b) ∧
  crc8 [0x01#8] = 0x5E#8 ∧ crc8 [0x80#8] = 0x8C#8

/-- R114: `crc8` is linear over GF(2) for sequences of one length. -/
def Obligations.CrcIsLinear : Prop :=
  ∀ s t : List Byte, s.length = t.length → crc8 (List.zipWith (· ^^^ ·) s t) = crc8 s ^^^ crc8 t

/-- R115: appending its CRC to a sequence gives CRC 0, so an intact ROM id and an intact scratchpad frame have CRC 0. -/
def Obligations.CrcResidueIsZero : Prop :=
  (∀ s : List Byte, crc8 (s ++ [crc8 s]) = 0x00#8) ∧
  (∀ rom : Vector Byte 8, byteAt rom 7 = crc8 (rom.toList.take 7) → crc8 rom.toList = 0x00#8) ∧
  (∀ buf : Vector Byte 16, byteAt buf 8 = crc8 (buf.toList.take 8) → crc8 (buf.toList.take 9) = 0x00#8)

/-- R118: flipping any single bit of any non-empty sequence changes its CRC. -/
def Obligations.CrcDetectsEverySingleBitFlip : Prop :=
  ∀ (s : List Byte) (i k : Nat) (h : i < s.length), k < 8 →
    crc8 (s.set i (s[i] ^^^ (1#8 <<< k))) ≠ crc8 s

/-! ### The 1-Wire bus controller (41_onewire.md) -/

/-- R140: OW_RESET: the prelude, the reset pulse, its sample in PRESENCE, and nothing else changed. -/
def Obligations.OwResetSamplesPresence : Prop :=
  ∀ s : State, s.inReset = false →
    (s.busy = true → exec .owReset s = .next (raiseError .busyWrite s)) ∧
    (s.busy = false →
      exec .owReset s = .next { (afterPrelude s).afterAnswers 1 with
        presence := s.answer 0
        hist := (afterPrelude s).hist ++ [.reset (s.answer 0)]
        busy := false
        seq := .idle })

/-- R141: OW_SELECT: the prelude, then the write slots of 0x55 and of ROM[0] to ROM[7], each byte least significant
bit first, and nothing else changed. -/
def Obligations.OwSelectWritesMatchRomAndTheId : Prop :=
  ∀ s : State, s.inReset = false →
    (s.busy = true → exec .owSelect s = .next (raiseError .busyWrite s)) ∧
    (s.busy = false →
      exec .owSelect s = .next { afterPrelude s with
        hist := (afterPrelude s).hist ++ writeEvents (0x55#8 :: s.rom.toList)
        busy := false
        seq := .idle })

/-- R142: OW_WRITE: the prelude, the eight write slots of the byte, with SPU the strong pull-up taken after them, and
nothing else changed. -/
def Obligations.OwWriteSendsTheByteAndTakesTheHold : Prop :=
  ∀ (b : Byte) (s : State), s.inReset = false →
    (∀ spu, s.busy = true → exec (.owWrite b spu) s = .next (raiseError .busyWrite s)) ∧
    (s.busy = false →
      exec (.owWrite b false) s = .next { afterPrelude s with
        hist := (afterPrelude s).hist ++ writeEvents [b]
        busy := false
        seq := .idle }) ∧
    (s.busy = false →
      exec (.owWrite b true) s = .next { afterPrelude s with
        hist := (afterPrelude s).hist ++ writeEvents [b] ++ [.spuOn]
        line := .spu
        spu := true
        busy := false
        seq := .idle })

/-- R143: OW_READ: the prelude, `8n` read slots whose answers are the bits of BUF[0] to BUF[n-1], least significant
first, BUF[n] to BUF[15] and everything else unchanged. -/
def Obligations.OwReadStoresTheAnswers : Prop :=
  ∀ (n : Nat) (s : State), s.inReset = false →
    (s.busy = true → exec (.owRead n) s = .next (raiseError .busyWrite s)) ∧
    (s.busy = false → 1 ≤ n → n ≤ 16 →
      ∃ buf',
        exec (.owRead n) s = .next { (afterPrelude s).afterAnswers (8 * n) with
          hist := (afterPrelude s).hist ++ (List.range (8 * n)).map (fun j => .r (s.answer j))
          buf := buf'
          busy := false
          seq := .idle } ∧
        (∀ i j, i < n → j < 8 → (byteAt buf' i).getLsbD j = s.answer (8 * i + j)) ∧
        (∀ i, n ≤ i → byteAt buf' i = byteAt s.buf i))

/-- R131: a Sequencer step of OW_RESET, OW_SELECT, OW_WRITE or OW_READ, and one of SRCH_NEXT unless it ends a pass at
once, appends exactly one event to the bus history; a step of CRC, SRCH_RESET or NTP_START appends none. -/
def Obligations.EachBusMicroOperationIsOneEvent : Prop :=
  ∀ (i : Instr) (k : MicroState) (s : State), s.inReset = false → s.seq = .running i k → microOk i k = true →
    match i with
    | .owReset | .owSelect | .owWrite _ _ | .owRead _ => ∃ e, (sequencerStep s).hist = s.hist ++ [e]
    | .srchNext =>
      (k = .start → s.lastDevice = true → (sequencerStep s).hist = s.hist) ∧
      (¬ (k = .start ∧ s.lastDevice = true) → ∃ e, (sequencerStep s).hist = s.hist ++ [e])
    | .srchReset | .crc _ _ | .ntpStart => (sequencerStep s).hist = s.hist

/-- R25, R43: on every agent's turn the history only grows, and the new events give the line and PRESENCE: the line is
`Spu` from a SpuOn to the next SpuOff, PRESENCE is the sample of the most recent reset pulse. -/
def Obligations.HistoryDeterminesLineAndPresence : Prop :=
  ∀ (t : Turn) (s s' : State), (∀ level, t ≠ .resetPin level) → turnStep t s = .next s' →
    ∃ events, s'.hist = s.hist ++ events ∧ s'.line = lineAfter s.line events ∧
      s'.presence = presenceAfter s.presence events

/-- R135: only a bus-driving command changes the line: no host access, no tick, and no step of CRC, SRCH_RESET,
NTP_START or of a SRCH_NEXT that sends no reset pulse does. -/
def Obligations.OnlyBusDrivingCommandsChangeTheLine : Prop :=
  (∀ (off : Nat) (width : AccessWidth) (v : Word) (s : State),
    (writeOffset off width v s).line = s.line ∧ (readOffset off width s).2.line = s.line) ∧
  (∀ s : State, (ntpTimerStep s).line = s.line) ∧
  (∀ (i : Instr) (s t : State), (i = .srchReset ∨ i = .ntpStart ∨ (∃ src len, i = .crc src len) ∨
      (i = .srchNext ∧ s.lastDevice = true)) →
    exec i s = .next t → t.line = s.line ∧ t.spu = s.spu)

/-! ### The ROM search (42_search.md) -/

/-- R166: SRCH_NEXT, run step by step, does what its pseudocode says in one pass; refused while BUSY = 1. -/
def Obligations.SrchNextFollowsItsPseudocode : Prop :=
  ∀ s : State, s.inReset = false →
    (s.busy = true → exec .srchNext s = .next (raiseError .busyWrite s)) ∧
    (s.busy = false → exec .srchNext s = .next (searchEffect s))

/-- R160, R168, R169: a SRCH_NEXT ends with an address, the whole of SROM in ROM and a family code other than 0x00, or
with `None`, a fresh search state and ROM unchanged; it changes no CRC, ERROR, BUF or NTP register. -/
def Obligations.SrchNextEndsWithAddressOrNone : Prop :=
  ∀ s : State, Ready s →
    ∃ t, exec .srchNext s = .next t ∧ t.busy = false ∧ t.seq = .idle ∧
      ((t.found = true ∧ t.rom = t.srom ∧ byteAt t.rom 0 ≠ 0x00#8) ∨
        (t.found = false ∧ t.lastDiscrepancy = 0 ∧ t.lastDevice = false ∧ t.rom = s.rom)) ∧
      t.crcResult = s.crcResult ∧ t.crcMatch = s.crcMatch ∧ t.errCode = s.errCode ∧ t.errMore = s.errMore ∧
      t.buf = s.buf ∧ t.rx = s.rx ∧ t.ntpState = s.ntpState ∧ t.ntpSeconds = s.ntpSeconds ∧ t.ntpRaw = s.ntpRaw ∧
      t.ntpElapsed = s.ntpElapsed ∧ t.ntpRxLen = s.ntpRxLen ∧ t.tickDiv = s.tickDiv

/-- R167: SRCH_RESET makes the search state fresh, clears FOUND and changes nothing else. -/
def Obligations.SrchResetMakesTheSearchFresh : Prop :=
  ∀ s : State, s.inReset = false →
    (s.busy = true → exec .srchReset s = .next (raiseError .busyWrite s)) ∧
    (s.busy = false →
      exec .srchReset s = .next { s with
        lastDiscrepancy := 0, lastDevice := false, found := false, busy := false, seq := .idle })

/-- R161, R33, R34: only SRCH_NEXT, SRCH_RESET and reset write the search state: no other command does, no host access
and no tick. -/
def Obligations.SearchStateIsOwnedByTheSearch : Prop :=
  (∀ (i : Instr) (s t : State), i ≠ .srchNext → i ≠ .srchReset → exec i s = .next t →
    t.lastDiscrepancy = s.lastDiscrepancy ∧ t.lastDevice = s.lastDevice ∧ t.srom = s.srom) ∧
  (∀ (i : Instr) (k : MicroState) (s : State), i ≠ .srchNext → i ≠ .srchReset → s.seq = .running i k →
    (sequencerStep s).lastDiscrepancy = s.lastDiscrepancy ∧ (sequencerStep s).lastDevice = s.lastDevice ∧
      (sequencerStep s).srom = s.srom) ∧
  (∀ (off : Nat) (width : AccessWidth) (v : Word) (s : State),
    (writeOffset off width v s).lastDiscrepancy = s.lastDiscrepancy ∧
      (writeOffset off width v s).lastDevice = s.lastDevice ∧ (writeOffset off width v s).srom = s.srom) ∧
  (∀ (off : Nat) (width : AccessWidth) (s : State),
    (readOffset off width s).2.lastDiscrepancy = s.lastDiscrepancy ∧
      (readOffset off width s).2.lastDevice = s.lastDevice ∧ (readOffset off width s).2.srom = s.srom) ∧
  (∀ s : State, (ntpTimerStep s).lastDiscrepancy = s.lastDiscrepancy ∧ (ntpTimerStep s).lastDevice = s.lastDevice ∧
    (ntpTimerStep s).srom = s.srom)

/-- R163 with the premise of 41_onewire.md R133: whatever the search state, a SRCH_NEXT that sends a pulse on the
reference population of a non-empty set of devices, none of family 0x00, finds one of them. -/
def Obligations.SearchOnReferenceBusFindsADevice : Prop :=
  ∀ (devices : List ReferenceBus.RomId) (s t : State), devices ≠ [] → (∀ d ∈ devices, byteAt d 0 ≠ 0x00#8) →
    Ready s → s.lastDevice = false → exec .srchNext s = .next t →
    ReferenceBus.answersAs devices (t.hist.drop s.hist.length) = true →
    t.found = true ∧ t.rom ∈ devices

/-- R171: on the reference population, from a fresh search state, successive SRCH_NEXT give each id exactly once, then
`None`, after which the search state is fresh and the next pass begins. -/
def Obligations.SearchPassGivesEachDeviceOnce : Prop :=
  ∀ (devices : List ReferenceBus.RomId) (s : State), devices ≠ [] → devices.Nodup →
    (∀ d ∈ devices, byteAt d 0 ≠ 0x00#8) → Ready s → freshSearch s = true →
    ReferenceBus.answersAs devices ((callsSrchNext devices.length s).hist.drop s.hist.length) = true →
    (∀ k, k < devices.length → (callsSrchNext (k + 1) s).found = true) ∧
    ((List.range devices.length).map fun k => (callsSrchNext (k + 1) s).rom).Perm devices ∧
    (callsSrchNext (devices.length + 1) s).found = false ∧
    freshSearch (callsSrchNext (devices.length + 1) s) = true

/-- R172: on the reference population, in a pass from a fresh search state, the ids come in increasing order of their
bits on the bus. -/
def Obligations.SearchPassIsInIdOrder : Prop :=
  ∀ (devices : List ReferenceBus.RomId) (s : State), devices ≠ [] → devices.Nodup →
    (∀ d ∈ devices, byteAt d 0 ≠ 0x00#8) → Ready s → freshSearch s = true →
    ReferenceBus.answersAs devices ((callsSrchNext devices.length s).hist.drop s.hist.length) = true →
    ∀ k, k + 1 < devices.length → idBefore (callsSrchNext (k + 1) s).rom (callsSrchNext (k + 2) s).rom

/-! ### The NTP unit (43_ntp.md) -/

/-- R190: the request frame, byte by byte, and its registers. -/
def Obligations.RequestFrameIsConstant : Prop :=
  txFrame.toList = [0xE3#8, 0x00#8, 0x06#8, 0xEC#8] ++ List.replicate 8 0x00#8 ++
    [0x31#8, 0x4E#8, 0x31#8, 0x34#8] ++ List.replicate 32 0x00#8 ∧
  ∀ s : State,
    (readOffset 0xC0 .w32 s).1 = 0xEC0600E3#32 ∧ (readOffset 0xCC .w32 s).1 = 0x34314E31#32 ∧
    ∀ off, off % 4 = 0 → (off = 0xC4 ∨ off = 0xC8 ∨ (0xD0 ≤ off ∧ off ≤ 0xEC)) →
      (readOffset off .w32 s).1 = 0x00000000#32

/-- R193: NTP_START clears the reply registers, starts the window and changes nothing else. -/
def Obligations.NtpStartOpensTheWindow : Prop :=
  ∀ s : State, s.inReset = false →
    (s.busy = true → exec .ntpStart s = .next (raiseError .busyWrite s)) ∧
    (s.busy = false →
      ∃ rx', exec .ntpStart s = .next { s with
          rx := rx'
          ntpRxLen := 0#16
          ntpRaw := 0#32
          ntpSeconds := 0#32
          ntpElapsed := 0#16
          tickDiv := 0
          ntpState := .awaiting
          busy := false
          seq := .idle } ∧
        ∀ i, i < 48 → byteAt rx' i = 0x00#8)

/-- R196: the NtpTimer's step in AWAITING adds 1 to NTP_ELAPSED and ends the window exactly when it reaches 1500; from
the start of a window, 1499 ticks leave it open and the 1500th ends it; in the other states there is no step. -/
def Obligations.WindowEndsAtTheTick1500 : Prop :=
  (∀ s : State, s.inReset = false → s.ntpState = .awaiting →
    ntpTimerStep s = { s with
      ntpElapsed := s.ntpElapsed + 1#16
      ntpState := if s.ntpElapsed + 1#16 = 1500#16 then .timedOut else .awaiting }) ∧
  (∀ s : State, s.ntpState ≠ .awaiting → ntpTimerStep s = s) ∧
  (∀ (k : Nat) (s : State), s.inReset = false → s.ntpState = .awaiting → s.ntpElapsed = 0#16 →
    (k < 1500 → Nat.repeat ntpTimerStep k s = { s with ntpElapsed := BitVec.ofNat 16 k }) ∧
    (1500 ≤ k → Nat.repeat ntpTimerStep k s = { s with ntpElapsed := 1500#16, ntpState := .timedOut }))

/-- R197: a delivery records its length in every state; in AWAITING with a length of at least 48 it parses the reply
and moves to DONE; otherwise nothing else changes; it raises no error, and is accepted also while BUSY = 1. -/
def Obligations.DeliveryIsParsedOnlyInTheWindow : Prop :=
  ∀ (v : Word) (s : State),
    (s.ntpState = .awaiting → 48 ≤ (v.extractLsb' 0 16).toNat →
      writeOffset 0x30 .w32 v s = { s with
        ntpRxLen := v.extractLsb' 0 16
        ntpRaw := byteAt s.rx 40 ++ byteAt s.rx 41 ++ byteAt s.rx 42 ++ byteAt s.rx 43
        ntpSeconds := (byteAt s.rx 40 ++ byteAt s.rx 41 ++ byteAt s.rx 42 ++ byteAt s.rx 43) - 2208988800#32
        ntpState := .done }) ∧
    (s.ntpState ≠ .awaiting ∨ (v.extractLsb' 0 16).toNat < 48 →
      writeOffset 0x30 .w32 v s = { s with ntpRxLen := v.extractLsb' 0 16 })

/-- R72, R198: the seconds field is big-endian at offset 40, the byte-reverse of register NTP_RX10. -/
def Obligations.SecondsFieldIsBigEndian : Prop :=
  ∀ s : State,
    (replySeconds s).toNat = (byteAt s.rx 40).toNat * 2 ^ 24 + (byteAt s.rx 41).toNat * 2 ^ 16 +
      (byteAt s.rx 42).toNat * 2 ^ 8 + (byteAt s.rx 43).toNat ∧
    ∀ j, j < 4 →
      (replySeconds s).extractLsb' (8 * j) 8 = (regValue s (.ntpRx 10)).extractLsb' (8 * (3 - j)) 8

/-- R199: the conversion is exact from 2208988800 on and wraps to `raw + 2085978496` below it. -/
def Obligations.UnixSecondsAreExactOrWrap : Prop :=
  ∀ raw : Word,
    (2208988800 ≤ raw.toNat → (unixSeconds raw).toNat = raw.toNat - 2208988800) ∧
    (raw.toNat < 2208988800 → (unixSeconds raw).toNat = raw.toNat + 2085978496)

/-- R192: on every step NTP_STATE moves only by the listed transitions. -/
def Obligations.NtpStateMovesOnlyAsListed : Prop :=
  ∀ s s' : State, step s = .next s' → s'.ntpState ≠ s.ntpState →
    (s'.ntpState = .awaiting ∧ s'.ntpElapsed = 0#16 ∧ s'.seq = .idle ∧
      ((∃ k, s.seq = .running .ntpStart k) ∨
        ∃ w rest, s.program = .runCommand w :: rest ∧ decode w = some .ntpStart)) ∨
    (s.ntpState = .awaiting ∧ s'.ntpState = .timedOut ∧ s.ntpElapsed = 1499#16 ∧ s'.ntpElapsed = 1500#16) ∨
    (s.ntpState = .awaiting ∧ s'.ntpState = .done ∧ 48 ≤ s'.ntpRxLen.toNat) ∨
    (s'.ntpState = .idle ∧ s'.inReset = true)

/-! ### Reset, steps and the whole machine -/

/-- R48: the reset value of every piece of the block's state. -/
def Obligations.ResetValues : Prop :=
  State.reset.busy = false ∧ State.reset.presence = false ∧ State.reset.found = false ∧
  State.reset.crcMatch = false ∧ State.reset.spu = false ∧ State.reset.ntpState = .idle ∧
  errorWord State.reset = 0x00000000#32 ∧ statusWord State.reset = 0x00000000#32 ∧
  State.reset.crcResult = 0x00#8 ∧
  (∀ i, byteAt State.reset.rom i = 0x00#8 ∧ byteAt State.reset.srom i = 0x00#8 ∧
    byteAt State.reset.buf i = 0x00#8 ∧ byteAt State.reset.rx i = 0x00#8) ∧
  State.reset.lastDiscrepancy = 0 ∧ State.reset.lastDevice = false ∧
  State.reset.ntpSeconds = 0#32 ∧ State.reset.ntpRaw = 0#32 ∧ State.reset.ntpElapsed = 0#16 ∧
  State.reset.ntpRxLen = 0#16 ∧
  (∀ k, k < 12 → (readOffset (0xC0 + 4 * k) .w32 State.reset).1 =
    if k = 0 then 0xEC0600E3#32 else if k = 3 then 0x34314E31#32 else 0x00000000#32) ∧
  State.reset.seq = .idle ∧ State.reset.line = .released ∧ State.reset.tickDiv = 0 ∧ State.reset.hist = []

/-- R250: driving the reset input to its active level puts every piece of the block's state to its reset value, from
any state, also in the middle of a command; releasing it leaves those values. The program, the schedule, the Bus's
answers, the count of draws and the read log are the agents' own and stay (log entry 8). -/
def Obligations.ResetInputRestoresEveryResetValue : Prop :=
  ∀ s : State,
    let held := { State.reset with
      inReset := true, program := s.program, schedule := s.schedule, busAnswers := s.busAnswers,
      draws := s.draws, readLog := s.readLog }
    turnStep (.resetPin Config.resetActive) s = .next held ∧
    turnStep (.resetPin (!Config.resetActive)) held = .next { held with inReset := false } ∧
    turnStep .sequencer held = .next held ∧ turnStep .ntpTimer held = .next held

/-- R250 (93_implementation_defined.md I6): a host access of the window while the reset input is active is stuck; that
the model ends it in the fault `hostAccessInReset` is log entry 17. -/
def Obligations.HostAccessInResetIsStuck : Prop :=
  ∀ (s : State) (off : Nat) (width : AccessWidth) (v : Word), s.inReset = true → off < 256 →
    hostStmtStep (.rd (Config.pBase + off) width) s = .fault .hostAccessInReset ∧
    hostStmtStep (.wr (Config.pBase + off) width v) s = .fault .hostAccessInReset ∧
    hostStmtStep .waitIdle s = .fault .hostAccessInReset ∧
    hostStmtStep .waitNtp s = .fault .hostAccessInReset ∧
    hostStmtStep (.runCommand v) s = .fault .hostAccessInReset ∧
    ∀ i, exec i s = .fault .hostAccessInReset

/-- The machine runs the command its word decodes to: where the host's turn is next and its next statement is the run
of a word that decodes to `i`, the step is `exec i`, the turn and the statement taken off. -/
def Obligations.StepRunsTheDecodedCommand : Prop :=
  ∀ (s : State) (w : Word) (i : Instr) (rest : List HostStmt) (turns : List Turn), Ready s → decode w = some i →
    s.program = .runCommand w :: rest → s.schedule = .host :: turns →
    step s = exec i { s with program := rest, schedule := turns }

/-- R99: with the reset input released, a host statement is one step: a write or a read of any width at any offset of
the window, the read's value logged (log entry 10), and one round of WAIT_IDLE or WAIT_NTP, a read of STATUS after which
the statement is done or stays; `wr REG` and `rd REG` are the 32-bit accesses at the register's offset. -/
def Obligations.StepRunsTheHostAccess : Prop :=
  (∀ (s : State) (rest : List HostStmt) (turns : List Turn), s.inReset = false → s.schedule = .host :: turns →
    (∀ off width v, off < 256 → s.program = .wr (Config.pBase + off) width v :: rest →
      step s = .next (writeOffset off width v { s with program := rest, schedule := turns })) ∧
    (∀ off width, off < 256 → s.program = .rd (Config.pBase + off) width :: rest →
      step s = .next { (readOffset off width { s with program := rest, schedule := turns }).2 with
        readLog := s.readLog ++ [(readOffset off width { s with program := rest, schedule := turns }).1] }) ∧
    (s.program = .waitIdle :: rest →
      step s = .next { s with
        program := if s.busy = true then .waitIdle :: rest else rest
        schedule := turns
        readLog := s.readLog ++ [statusWord s] }) ∧
    (s.program = .waitNtp :: rest →
      step s = .next { s with
        program := if s.ntpState = .done ∨ s.ntpState = .timedOut then rest else .waitNtp :: rest
        schedule := turns
        readLog := s.readLog ++ [statusWord s] })) ∧
  ∀ (r : Reg) (v : Word), r.offset < 256 ∧ HostProgram.wr r v = .wr (Config.pBase + r.offset) .w32 v ∧
    HostProgram.rd r = .rd (Config.pBase + r.offset) .w32

/-- R195: handing over a datagram of any length, the host's statements run one after the other: RX holds the datagram's
first min(len, 48) bytes in arrival order, the bytes of RX beyond a short datagram keep their values, the length is
delivered (R197), and nothing else changes. How the host writes a word that the datagram's end cuts is log entry 23. -/
def Obligations.HandOverStoresTheDatagram : Prop :=
  ∀ (datagram : List Byte) (s : State) (rest : List HostStmt) (turns : List Turn), s.inReset = false →
    ∃ rx',
      Sys2Proof.core.run (HostProgram.handOver s.rx datagram).length { s with
          program := HostProgram.handOver s.rx datagram ++ rest
          schedule := List.replicate (HostProgram.handOver s.rx datagram).length .host ++ turns } =
        .next (deliver (BitVec.ofNat 16 datagram.length)
          { s with rx := rx', program := rest, schedule := turns }) ∧
      ∀ i, i < 48 → byteAt rx' i = (if h : i < datagram.length then datagram[i] else byteAt s.rx i)

/-- R273: where the run of a host program ends, the program is done, no command runs and the reset input is released;
where its first statement started an NTP exchange, NTP_STATE is DONE or TIMEDOUT. What counts as starting one is log
entry 24. -/
def Obligations.RunEndsWithTheBlockIdle : Prop :=
  ∀ (prog : List HostStmt) (n : Nat) (s t : State), HostProgram.endState prog n s = some t →
    t.program = [] ∧ t.busy = false ∧ t.inReset = false ∧
    (HostProgram.startsExchange { s with program := prog ++ [.waitIdle] } = true →
      t.ntpState = .done ∨ t.ntpState = .timedOut)

/-- R42: `seq` is `Idle` exactly when STATUS.BUSY is 0: every step keeps it. -/
def Obligations.StepKeepsBusyExactlyWhileRunning : Prop :=
  ∀ s s' : State, (s.busy = true ↔ s.seq ≠ .idle) → step s = .next s' → (s'.busy = true ↔ s'.seq ≠ .idle)

/-- R28: STATUS.SPU is 1 exactly while the line is in the strong-pull-up state: every step keeps it. -/
def Obligations.StepKeepsSpuExactlyTheLine : Prop :=
  ∀ s s' : State, (s.spu = true ↔ s.line = .spu) → step s = .next s' → (s'.spu = true ↔ s'.line = .spu)

/-- The invariant of the machine holds after reset. -/
def Obligations.ResetHasTheInvariant : Prop := State.reset.Inv

/-- The invariant of the machine, kept by every step of every agent from every state that has it. -/
def Obligations.StepKeepsTheInvariant : Prop :=
  ∀ s s' : State, s.Inv → step s = .next s' → s'.Inv

/-- R252, R271: an accepted command completes within its largest number of Sequencer steps, 202 at most. -/
def Obligations.EveryCommandCompletesWithinItsBound : Prop :=
  ∀ (i : Instr) (s : State), i.wf = true → s.inReset = false →
    maxSteps i ≤ 202 ∧
    (Nat.repeat sequencerStep (maxSteps i) (accept i s)).seq = .idle ∧
    (Nat.repeat sequencerStep (maxSteps i) (accept i s)).busy = false

/-- `exec` is the Sequencer alone: the meaning of a command is its acceptance followed by Sequencer steps and by nothing
else. -/
def Obligations.ExecIsAcceptanceAndSequencerSteps : Prop :=
  ∀ (i : Instr) (s : State), Ready s →
    exec i s = .next (Nat.repeat sequencerStep (maxSteps i) (accept i s))

/-- R66, R74: running a command as one step is one of the interleavings of the agents' own steps: the host's write of
its word to CMD, then Sequencer turns only, lead to the same state. -/
def Obligations.RunCommandIsAnInterleaving : Prop :=
  ∀ (i : Instr) (s : State) (rest : List HostStmt) (turns : List Turn), i.wf = true → Ready s →
    Sys2Proof.core.run (1 + maxSteps i) { s with
        program := HostProgram.command i :: rest
        schedule := .host :: (List.replicate (maxSteps i) .sequencer ++ turns) } =
      step { s with program := .runCommand (encode i) :: rest, schedule := .host :: turns }
end

