-- ==== Sys2Proof/Laws/Crc.lean ====
section
/-! SUPPORT. The CRC-8 step as bits: it is XOR-linear, and one byte at a time (40_crc.md R110). -/

namespace Sys2Proof.Machine

@[simp] theorem crc8_nil : crc8 [] = 0#8 := rfl

theorem crc8_append (s t : List Byte) : crc8 (s ++ t) = t.foldl crc8Step (crc8 s) := by
  simp [crc8, List.foldl_append]

theorem crc8_concat (s : List Byte) (b : Byte) : crc8 (s ++ [b]) = crc8Step (crc8 s) b := by
  simp [crc8_append]

/-- One turn depends on the register and the byte through their XOR and the register's shift. -/
theorem crc8Bit_xor (x y u v : Byte) : crc8Bit (x ^^^ y) (u ^^^ v) = crc8Bit x u ^^^ crc8Bit y v := by
  have low : ∀ z : Byte, z &&& 1#8 = 1#8 ∨ z &&& 1#8 = 0#8 := by decide
  have lowXor : ((x ^^^ y) ^^^ (u ^^^ v)) &&& 1#8 = ((x ^^^ u) &&& 1#8) ^^^ ((y ^^^ v) &&& 1#8) := by
    ext i hi
    simp only [BitVec.getElem_and, BitVec.getElem_xor]
    cases x[i] <;> cases y[i] <;> cases u[i] <;> cases v[i] <;> cases (1#8)[i] <;> rfl
  have cancel : ∀ z w p : Byte, (z ^^^ p) ^^^ (w ^^^ p) = z ^^^ w := by
    intro z w p; ext i hi
    simp only [BitVec.getElem_xor]
    cases z[i] <;> cases w[i] <;> cases p[i] <;> rfl
  unfold crc8Bit
  rw [lowXor, BitVec.ushiftRight_xor_distrib]
  rcases low (x ^^^ u) with h | h <;> rcases low (y ^^^ v) with h' | h' <;> simp [h, h', cancel] <;> ac_rfl

theorem crc8Loop_xor (k : Nat) (c c' b b' : Byte) :
    crc8Loop k (c ^^^ c') (b ^^^ b') = crc8Loop k c b ^^^ crc8Loop k c' b' := by
  induction k generalizing c c' b b' with
  | zero => rfl
  | succ k ih => simp only [crc8Loop, crc8Bit_xor, BitVec.ushiftRight_xor_distrib, ih]

/-- `crc8_step` is XOR-linear. -/
theorem crc8Step_xor (c c' b b' : Byte) : crc8Step (c ^^^ c') (b ^^^ b') = crc8Step c b ^^^ crc8Step c' b' :=
  crc8Loop_xor 8 c c' b b'

end Sys2Proof.Machine
end

