-- ==== Sys2Proof/Laws/State.lean ====
section
/-! SUPPORT. One lemma per field for each named update of the state, so that no later proof unfolds a record update. -/

namespace Sys2Proof.Machine

/-! ### accept -/

@[simp] theorem accept_busy (i : Instr) (s : State) : (accept i s).busy = true := rfl
@[simp] theorem accept_presence (i : Instr) (s : State) : (accept i s).presence = s.presence := rfl
@[simp] theorem accept_found (i : Instr) (s : State) : (accept i s).found = s.found := rfl
@[simp] theorem accept_crcMatch (i : Instr) (s : State) : (accept i s).crcMatch = s.crcMatch := rfl
@[simp] theorem accept_spu (i : Instr) (s : State) : (accept i s).spu = s.spu := rfl
@[simp] theorem accept_ntpState (i : Instr) (s : State) : (accept i s).ntpState = s.ntpState := rfl
@[simp] theorem accept_errCode (i : Instr) (s : State) : (accept i s).errCode = s.errCode := rfl
@[simp] theorem accept_errMore (i : Instr) (s : State) : (accept i s).errMore = s.errMore := rfl
@[simp] theorem accept_crcResult (i : Instr) (s : State) : (accept i s).crcResult = s.crcResult := rfl
@[simp] theorem accept_rom (i : Instr) (s : State) : (accept i s).rom = s.rom := rfl
@[simp] theorem accept_lastDiscrepancy (i : Instr) (s : State) : (accept i s).lastDiscrepancy = s.lastDiscrepancy := rfl
@[simp] theorem accept_lastDevice (i : Instr) (s : State) : (accept i s).lastDevice = s.lastDevice := rfl
@[simp] theorem accept_srom (i : Instr) (s : State) : (accept i s).srom = s.srom := rfl
@[simp] theorem accept_ntpSeconds (i : Instr) (s : State) : (accept i s).ntpSeconds = s.ntpSeconds := rfl
@[simp] theorem accept_ntpRaw (i : Instr) (s : State) : (accept i s).ntpRaw = s.ntpRaw := rfl
@[simp] theorem accept_ntpElapsed (i : Instr) (s : State) : (accept i s).ntpElapsed = s.ntpElapsed := rfl
@[simp] theorem accept_ntpRxLen (i : Instr) (s : State) : (accept i s).ntpRxLen = s.ntpRxLen := rfl
@[simp] theorem accept_buf (i : Instr) (s : State) : (accept i s).buf = s.buf := rfl
@[simp] theorem accept_rx (i : Instr) (s : State) : (accept i s).rx = s.rx := rfl
@[simp] theorem accept_seq (i : Instr) (s : State) : (accept i s).seq = .running i .start := rfl
@[simp] theorem accept_line (i : Instr) (s : State) : (accept i s).line = s.line := rfl
@[simp] theorem accept_tickDiv (i : Instr) (s : State) : (accept i s).tickDiv = s.tickDiv := rfl
@[simp] theorem accept_hist (i : Instr) (s : State) : (accept i s).hist = s.hist := rfl
@[simp] theorem accept_inReset (i : Instr) (s : State) : (accept i s).inReset = s.inReset := rfl
@[simp] theorem accept_program (i : Instr) (s : State) : (accept i s).program = s.program := rfl
@[simp] theorem accept_schedule (i : Instr) (s : State) : (accept i s).schedule = s.schedule := rfl
@[simp] theorem accept_busAnswers (i : Instr) (s : State) : (accept i s).busAnswers = s.busAnswers := rfl
@[simp] theorem accept_draws (i : Instr) (s : State) : (accept i s).draws = s.draws := rfl
@[simp] theorem accept_readLog (i : Instr) (s : State) : (accept i s).readLog = s.readLog := rfl

/-! ### goTo -/

@[simp] theorem goTo_busy (i : Instr) (k : MicroState) (s : State) : (goTo i k s).busy = s.busy := rfl
@[simp] theorem goTo_presence (i : Instr) (k : MicroState) (s : State) : (goTo i k s).presence = s.presence := rfl
@[simp] theorem goTo_found (i : Instr) (k : MicroState) (s : State) : (goTo i k s).found = s.found := rfl
@[simp] theorem goTo_crcMatch (i : Instr) (k : MicroState) (s : State) : (goTo i k s).crcMatch = s.crcMatch := rfl
@[simp] theorem goTo_spu (i : Instr) (k : MicroState) (s : State) : (goTo i k s).spu = s.spu := rfl
@[simp] theorem goTo_ntpState (i : Instr) (k : MicroState) (s : State) : (goTo i k s).ntpState = s.ntpState := rfl
@[simp] theorem goTo_errCode (i : Instr) (k : MicroState) (s : State) : (goTo i k s).errCode = s.errCode := rfl
@[simp] theorem goTo_errMore (i : Instr) (k : MicroState) (s : State) : (goTo i k s).errMore = s.errMore := rfl
@[simp] theorem goTo_crcResult (i : Instr) (k : MicroState) (s : State) : (goTo i k s).crcResult = s.crcResult := rfl
@[simp] theorem goTo_rom (i : Instr) (k : MicroState) (s : State) : (goTo i k s).rom = s.rom := rfl
@[simp] theorem goTo_lastDiscrepancy (i : Instr) (k : MicroState) (s : State) : (goTo i k s).lastDiscrepancy = s.lastDiscrepancy := rfl
@[simp] theorem goTo_lastDevice (i : Instr) (k : MicroState) (s : State) : (goTo i k s).lastDevice = s.lastDevice := rfl
@[simp] theorem goTo_srom (i : Instr) (k : MicroState) (s : State) : (goTo i k s).srom = s.srom := rfl
@[simp] theorem goTo_ntpSeconds (i : Instr) (k : MicroState) (s : State) : (goTo i k s).ntpSeconds = s.ntpSeconds := rfl
@[simp] theorem goTo_ntpRaw (i : Instr) (k : MicroState) (s : State) : (goTo i k s).ntpRaw = s.ntpRaw := rfl
@[simp] theorem goTo_ntpElapsed (i : Instr) (k : MicroState) (s : State) : (goTo i k s).ntpElapsed = s.ntpElapsed := rfl
@[simp] theorem goTo_ntpRxLen (i : Instr) (k : MicroState) (s : State) : (goTo i k s).ntpRxLen = s.ntpRxLen := rfl
@[simp] theorem goTo_buf (i : Instr) (k : MicroState) (s : State) : (goTo i k s).buf = s.buf := rfl
@[simp] theorem goTo_rx (i : Instr) (k : MicroState) (s : State) : (goTo i k s).rx = s.rx := rfl
@[simp] theorem goTo_seq (i : Instr) (k : MicroState) (s : State) : (goTo i k s).seq = .running i k := rfl
@[simp] theorem goTo_line (i : Instr) (k : MicroState) (s : State) : (goTo i k s).line = s.line := rfl
@[simp] theorem goTo_tickDiv (i : Instr) (k : MicroState) (s : State) : (goTo i k s).tickDiv = s.tickDiv := rfl
@[simp] theorem goTo_hist (i : Instr) (k : MicroState) (s : State) : (goTo i k s).hist = s.hist := rfl
@[simp] theorem goTo_inReset (i : Instr) (k : MicroState) (s : State) : (goTo i k s).inReset = s.inReset := rfl
@[simp] theorem goTo_program (i : Instr) (k : MicroState) (s : State) : (goTo i k s).program = s.program := rfl
@[simp] theorem goTo_schedule (i : Instr) (k : MicroState) (s : State) : (goTo i k s).schedule = s.schedule := rfl
@[simp] theorem goTo_busAnswers (i : Instr) (k : MicroState) (s : State) : (goTo i k s).busAnswers = s.busAnswers := rfl
@[simp] theorem goTo_draws (i : Instr) (k : MicroState) (s : State) : (goTo i k s).draws = s.draws := rfl
@[simp] theorem goTo_readLog (i : Instr) (k : MicroState) (s : State) : (goTo i k s).readLog = s.readLog := rfl

/-! ### complete -/

@[simp] theorem complete_busy (s : State) : (complete s).busy = false := rfl
@[simp] theorem complete_presence (s : State) : (complete s).presence = s.presence := rfl
@[simp] theorem complete_found (s : State) : (complete s).found = s.found := rfl
@[simp] theorem complete_crcMatch (s : State) : (complete s).crcMatch = s.crcMatch := rfl
@[simp] theorem complete_spu (s : State) : (complete s).spu = s.spu := rfl
@[simp] theorem complete_ntpState (s : State) : (complete s).ntpState = s.ntpState := rfl
@[simp] theorem complete_errCode (s : State) : (complete s).errCode = s.errCode := rfl
@[simp] theorem complete_errMore (s : State) : (complete s).errMore = s.errMore := rfl
@[simp] theorem complete_crcResult (s : State) : (complete s).crcResult = s.crcResult := rfl
@[simp] theorem complete_rom (s : State) : (complete s).rom = s.rom := rfl
@[simp] theorem complete_lastDiscrepancy (s : State) : (complete s).lastDiscrepancy = s.lastDiscrepancy := rfl
@[simp] theorem complete_lastDevice (s : State) : (complete s).lastDevice = s.lastDevice := rfl
@[simp] theorem complete_srom (s : State) : (complete s).srom = s.srom := rfl
@[simp] theorem complete_ntpSeconds (s : State) : (complete s).ntpSeconds = s.ntpSeconds := rfl
@[simp] theorem complete_ntpRaw (s : State) : (complete s).ntpRaw = s.ntpRaw := rfl
@[simp] theorem complete_ntpElapsed (s : State) : (complete s).ntpElapsed = s.ntpElapsed := rfl
@[simp] theorem complete_ntpRxLen (s : State) : (complete s).ntpRxLen = s.ntpRxLen := rfl
@[simp] theorem complete_buf (s : State) : (complete s).buf = s.buf := rfl
@[simp] theorem complete_rx (s : State) : (complete s).rx = s.rx := rfl
@[simp] theorem complete_seq (s : State) : (complete s).seq = .idle := rfl
@[simp] theorem complete_line (s : State) : (complete s).line = s.line := rfl
@[simp] theorem complete_tickDiv (s : State) : (complete s).tickDiv = s.tickDiv := rfl
@[simp] theorem complete_hist (s : State) : (complete s).hist = s.hist := rfl
@[simp] theorem complete_inReset (s : State) : (complete s).inReset = s.inReset := rfl
@[simp] theorem complete_program (s : State) : (complete s).program = s.program := rfl
@[simp] theorem complete_schedule (s : State) : (complete s).schedule = s.schedule := rfl
@[simp] theorem complete_busAnswers (s : State) : (complete s).busAnswers = s.busAnswers := rfl
@[simp] theorem complete_draws (s : State) : (complete s).draws = s.draws := rfl
@[simp] theorem complete_readLog (s : State) : (complete s).readLog = s.readLog := rfl

/-! ### logEvent -/

@[simp] theorem logEvent_busy (e : BusEvent) (s : State) : (logEvent e s).busy = s.busy := rfl
@[simp] theorem logEvent_presence (e : BusEvent) (s : State) : (logEvent e s).presence = s.presence := rfl
@[simp] theorem logEvent_found (e : BusEvent) (s : State) : (logEvent e s).found = s.found := rfl
@[simp] theorem logEvent_crcMatch (e : BusEvent) (s : State) : (logEvent e s).crcMatch = s.crcMatch := rfl
@[simp] theorem logEvent_spu (e : BusEvent) (s : State) : (logEvent e s).spu = s.spu := rfl
@[simp] theorem logEvent_ntpState (e : BusEvent) (s : State) : (logEvent e s).ntpState = s.ntpState := rfl
@[simp] theorem logEvent_errCode (e : BusEvent) (s : State) : (logEvent e s).errCode = s.errCode := rfl
@[simp] theorem logEvent_errMore (e : BusEvent) (s : State) : (logEvent e s).errMore = s.errMore := rfl
@[simp] theorem logEvent_crcResult (e : BusEvent) (s : State) : (logEvent e s).crcResult = s.crcResult := rfl
@[simp] theorem logEvent_rom (e : BusEvent) (s : State) : (logEvent e s).rom = s.rom := rfl
@[simp] theorem logEvent_lastDiscrepancy (e : BusEvent) (s : State) : (logEvent e s).lastDiscrepancy = s.lastDiscrepancy := rfl
@[simp] theorem logEvent_lastDevice (e : BusEvent) (s : State) : (logEvent e s).lastDevice = s.lastDevice := rfl
@[simp] theorem logEvent_srom (e : BusEvent) (s : State) : (logEvent e s).srom = s.srom := rfl
@[simp] theorem logEvent_ntpSeconds (e : BusEvent) (s : State) : (logEvent e s).ntpSeconds = s.ntpSeconds := rfl
@[simp] theorem logEvent_ntpRaw (e : BusEvent) (s : State) : (logEvent e s).ntpRaw = s.ntpRaw := rfl
@[simp] theorem logEvent_ntpElapsed (e : BusEvent) (s : State) : (logEvent e s).ntpElapsed = s.ntpElapsed := rfl
@[simp] theorem logEvent_ntpRxLen (e : BusEvent) (s : State) : (logEvent e s).ntpRxLen = s.ntpRxLen := rfl
@[simp] theorem logEvent_buf (e : BusEvent) (s : State) : (logEvent e s).buf = s.buf := rfl
@[simp] theorem logEvent_rx (e : BusEvent) (s : State) : (logEvent e s).rx = s.rx := rfl
@[simp] theorem logEvent_seq (e : BusEvent) (s : State) : (logEvent e s).seq = s.seq := rfl
@[simp] theorem logEvent_line (e : BusEvent) (s : State) : (logEvent e s).line = s.line := rfl
@[simp] theorem logEvent_tickDiv (e : BusEvent) (s : State) : (logEvent e s).tickDiv = s.tickDiv := rfl
@[simp] theorem logEvent_hist (e : BusEvent) (s : State) : (logEvent e s).hist = s.hist ++ [e] := rfl
@[simp] theorem logEvent_inReset (e : BusEvent) (s : State) : (logEvent e s).inReset = s.inReset := rfl
@[simp] theorem logEvent_program (e : BusEvent) (s : State) : (logEvent e s).program = s.program := rfl
@[simp] theorem logEvent_schedule (e : BusEvent) (s : State) : (logEvent e s).schedule = s.schedule := rfl
@[simp] theorem logEvent_busAnswers (e : BusEvent) (s : State) : (logEvent e s).busAnswers = s.busAnswers := rfl
@[simp] theorem logEvent_draws (e : BusEvent) (s : State) : (logEvent e s).draws = s.draws := rfl
@[simp] theorem logEvent_readLog (e : BusEvent) (s : State) : (logEvent e s).readLog = s.readLog := rfl

/-! ### busWriteBit -/

@[simp] theorem busWriteBit_busy (b : Bool) (s : State) : (busWriteBit b s).busy = s.busy := rfl
@[simp] theorem busWriteBit_presence (b : Bool) (s : State) : (busWriteBit b s).presence = s.presence := rfl
@[simp] theorem busWriteBit_found (b : Bool) (s : State) : (busWriteBit b s).found = s.found := rfl
@[simp] theorem busWriteBit_crcMatch (b : Bool) (s : State) : (busWriteBit b s).crcMatch = s.crcMatch := rfl
@[simp] theorem busWriteBit_spu (b : Bool) (s : State) : (busWriteBit b s).spu = s.spu := rfl
@[simp] theorem busWriteBit_ntpState (b : Bool) (s : State) : (busWriteBit b s).ntpState = s.ntpState := rfl
@[simp] theorem busWriteBit_errCode (b : Bool) (s : State) : (busWriteBit b s).errCode = s.errCode := rfl
@[simp] theorem busWriteBit_errMore (b : Bool) (s : State) : (busWriteBit b s).errMore = s.errMore := rfl
@[simp] theorem busWriteBit_crcResult (b : Bool) (s : State) : (busWriteBit b s).crcResult = s.crcResult := rfl
@[simp] theorem busWriteBit_rom (b : Bool) (s : State) : (busWriteBit b s).rom = s.rom := rfl
@[simp] theorem busWriteBit_lastDiscrepancy (b : Bool) (s : State) : (busWriteBit b s).lastDiscrepancy = s.lastDiscrepancy := rfl
@[simp] theorem busWriteBit_lastDevice (b : Bool) (s : State) : (busWriteBit b s).lastDevice = s.lastDevice := rfl
@[simp] theorem busWriteBit_srom (b : Bool) (s : State) : (busWriteBit b s).srom = s.srom := rfl
@[simp] theorem busWriteBit_ntpSeconds (b : Bool) (s : State) : (busWriteBit b s).ntpSeconds = s.ntpSeconds := rfl
@[simp] theorem busWriteBit_ntpRaw (b : Bool) (s : State) : (busWriteBit b s).ntpRaw = s.ntpRaw := rfl
@[simp] theorem busWriteBit_ntpElapsed (b : Bool) (s : State) : (busWriteBit b s).ntpElapsed = s.ntpElapsed := rfl
@[simp] theorem busWriteBit_ntpRxLen (b : Bool) (s : State) : (busWriteBit b s).ntpRxLen = s.ntpRxLen := rfl
@[simp] theorem busWriteBit_buf (b : Bool) (s : State) : (busWriteBit b s).buf = s.buf := rfl
@[simp] theorem busWriteBit_rx (b : Bool) (s : State) : (busWriteBit b s).rx = s.rx := rfl
@[simp] theorem busWriteBit_seq (b : Bool) (s : State) : (busWriteBit b s).seq = s.seq := rfl
@[simp] theorem busWriteBit_line (b : Bool) (s : State) : (busWriteBit b s).line = s.line := rfl
@[simp] theorem busWriteBit_tickDiv (b : Bool) (s : State) : (busWriteBit b s).tickDiv = s.tickDiv := rfl
@[simp] theorem busWriteBit_hist (b : Bool) (s : State) : (busWriteBit b s).hist = s.hist ++ [.w b] := rfl
@[simp] theorem busWriteBit_inReset (b : Bool) (s : State) : (busWriteBit b s).inReset = s.inReset := rfl
@[simp] theorem busWriteBit_program (b : Bool) (s : State) : (busWriteBit b s).program = s.program := rfl
@[simp] theorem busWriteBit_schedule (b : Bool) (s : State) : (busWriteBit b s).schedule = s.schedule := rfl
@[simp] theorem busWriteBit_busAnswers (b : Bool) (s : State) : (busWriteBit b s).busAnswers = s.busAnswers := rfl
@[simp] theorem busWriteBit_draws (b : Bool) (s : State) : (busWriteBit b s).draws = s.draws := rfl
@[simp] theorem busWriteBit_readLog (b : Bool) (s : State) : (busWriteBit b s).readLog = s.readLog := rfl

/-! ### takeSpu -/

@[simp] theorem takeSpu_busy (s : State) : (takeSpu s).busy = s.busy := rfl
@[simp] theorem takeSpu_presence (s : State) : (takeSpu s).presence = s.presence := rfl
@[simp] theorem takeSpu_found (s : State) : (takeSpu s).found = s.found := rfl
@[simp] theorem takeSpu_crcMatch (s : State) : (takeSpu s).crcMatch = s.crcMatch := rfl
@[simp] theorem takeSpu_spu (s : State) : (takeSpu s).spu = true := rfl
@[simp] theorem takeSpu_ntpState (s : State) : (takeSpu s).ntpState = s.ntpState := rfl
@[simp] theorem takeSpu_errCode (s : State) : (takeSpu s).errCode = s.errCode := rfl
@[simp] theorem takeSpu_errMore (s : State) : (takeSpu s).errMore = s.errMore := rfl
@[simp] theorem takeSpu_crcResult (s : State) : (takeSpu s).crcResult = s.crcResult := rfl
@[simp] theorem takeSpu_rom (s : State) : (takeSpu s).rom = s.rom := rfl
@[simp] theorem takeSpu_lastDiscrepancy (s : State) : (takeSpu s).lastDiscrepancy = s.lastDiscrepancy := rfl
@[simp] theorem takeSpu_lastDevice (s : State) : (takeSpu s).lastDevice = s.lastDevice := rfl
@[simp] theorem takeSpu_srom (s : State) : (takeSpu s).srom = s.srom := rfl
@[simp] theorem takeSpu_ntpSeconds (s : State) : (takeSpu s).ntpSeconds = s.ntpSeconds := rfl
@[simp] theorem takeSpu_ntpRaw (s : State) : (takeSpu s).ntpRaw = s.ntpRaw := rfl
@[simp] theorem takeSpu_ntpElapsed (s : State) : (takeSpu s).ntpElapsed = s.ntpElapsed := rfl
@[simp] theorem takeSpu_ntpRxLen (s : State) : (takeSpu s).ntpRxLen = s.ntpRxLen := rfl
@[simp] theorem takeSpu_buf (s : State) : (takeSpu s).buf = s.buf := rfl
@[simp] theorem takeSpu_rx (s : State) : (takeSpu s).rx = s.rx := rfl
@[simp] theorem takeSpu_seq (s : State) : (takeSpu s).seq = s.seq := rfl
@[simp] theorem takeSpu_line (s : State) : (takeSpu s).line = .spu := rfl
@[simp] theorem takeSpu_tickDiv (s : State) : (takeSpu s).tickDiv = s.tickDiv := rfl
@[simp] theorem takeSpu_hist (s : State) : (takeSpu s).hist = s.hist ++ [.spuOn] := rfl
@[simp] theorem takeSpu_inReset (s : State) : (takeSpu s).inReset = s.inReset := rfl
@[simp] theorem takeSpu_program (s : State) : (takeSpu s).program = s.program := rfl
@[simp] theorem takeSpu_schedule (s : State) : (takeSpu s).schedule = s.schedule := rfl
@[simp] theorem takeSpu_busAnswers (s : State) : (takeSpu s).busAnswers = s.busAnswers := rfl
@[simp] theorem takeSpu_draws (s : State) : (takeSpu s).draws = s.draws := rfl
@[simp] theorem takeSpu_readLog (s : State) : (takeSpu s).readLog = s.readLog := rfl

/-! ### releaseSpu -/

@[simp] theorem releaseSpu_busy (s : State) : (releaseSpu s).busy = s.busy := rfl
@[simp] theorem releaseSpu_presence (s : State) : (releaseSpu s).presence = s.presence := rfl
@[simp] theorem releaseSpu_found (s : State) : (releaseSpu s).found = s.found := rfl
@[simp] theorem releaseSpu_crcMatch (s : State) : (releaseSpu s).crcMatch = s.crcMatch := rfl
@[simp] theorem releaseSpu_spu (s : State) : (releaseSpu s).spu = false := rfl
@[simp] theorem releaseSpu_ntpState (s : State) : (releaseSpu s).ntpState = s.ntpState := rfl
@[simp] theorem releaseSpu_errCode (s : State) : (releaseSpu s).errCode = s.errCode := rfl
@[simp] theorem releaseSpu_errMore (s : State) : (releaseSpu s).errMore = s.errMore := rfl
@[simp] theorem releaseSpu_crcResult (s : State) : (releaseSpu s).crcResult = s.crcResult := rfl
@[simp] theorem releaseSpu_rom (s : State) : (releaseSpu s).rom = s.rom := rfl
@[simp] theorem releaseSpu_lastDiscrepancy (s : State) : (releaseSpu s).lastDiscrepancy = s.lastDiscrepancy := rfl
@[simp] theorem releaseSpu_lastDevice (s : State) : (releaseSpu s).lastDevice = s.lastDevice := rfl
@[simp] theorem releaseSpu_srom (s : State) : (releaseSpu s).srom = s.srom := rfl
@[simp] theorem releaseSpu_ntpSeconds (s : State) : (releaseSpu s).ntpSeconds = s.ntpSeconds := rfl
@[simp] theorem releaseSpu_ntpRaw (s : State) : (releaseSpu s).ntpRaw = s.ntpRaw := rfl
@[simp] theorem releaseSpu_ntpElapsed (s : State) : (releaseSpu s).ntpElapsed = s.ntpElapsed := rfl
@[simp] theorem releaseSpu_ntpRxLen (s : State) : (releaseSpu s).ntpRxLen = s.ntpRxLen := rfl
@[simp] theorem releaseSpu_buf (s : State) : (releaseSpu s).buf = s.buf := rfl
@[simp] theorem releaseSpu_rx (s : State) : (releaseSpu s).rx = s.rx := rfl
@[simp] theorem releaseSpu_seq (s : State) : (releaseSpu s).seq = s.seq := rfl
@[simp] theorem releaseSpu_line (s : State) : (releaseSpu s).line = .released := rfl
@[simp] theorem releaseSpu_tickDiv (s : State) : (releaseSpu s).tickDiv = s.tickDiv := rfl
@[simp] theorem releaseSpu_hist (s : State) : (releaseSpu s).hist = s.hist ++ [.spuOff] := rfl
@[simp] theorem releaseSpu_inReset (s : State) : (releaseSpu s).inReset = s.inReset := rfl
@[simp] theorem releaseSpu_program (s : State) : (releaseSpu s).program = s.program := rfl
@[simp] theorem releaseSpu_schedule (s : State) : (releaseSpu s).schedule = s.schedule := rfl
@[simp] theorem releaseSpu_busAnswers (s : State) : (releaseSpu s).busAnswers = s.busAnswers := rfl
@[simp] theorem releaseSpu_draws (s : State) : (releaseSpu s).draws = s.draws := rfl
@[simp] theorem releaseSpu_readLog (s : State) : (releaseSpu s).readLog = s.readLog := rfl

/-! ### clearError -/

@[simp] theorem clearError_busy (s : State) : (clearError s).busy = s.busy := rfl
@[simp] theorem clearError_presence (s : State) : (clearError s).presence = s.presence := rfl
@[simp] theorem clearError_found (s : State) : (clearError s).found = s.found := rfl
@[simp] theorem clearError_crcMatch (s : State) : (clearError s).crcMatch = s.crcMatch := rfl
@[simp] theorem clearError_spu (s : State) : (clearError s).spu = s.spu := rfl
@[simp] theorem clearError_ntpState (s : State) : (clearError s).ntpState = s.ntpState := rfl
@[simp] theorem clearError_errCode (s : State) : (clearError s).errCode = .none := rfl
@[simp] theorem clearError_errMore (s : State) : (clearError s).errMore = false := rfl
@[simp] theorem clearError_crcResult (s : State) : (clearError s).crcResult = s.crcResult := rfl
@[simp] theorem clearError_rom (s : State) : (clearError s).rom = s.rom := rfl
@[simp] theorem clearError_lastDiscrepancy (s : State) : (clearError s).lastDiscrepancy = s.lastDiscrepancy := rfl
@[simp] theorem clearError_lastDevice (s : State) : (clearError s).lastDevice = s.lastDevice := rfl
@[simp] theorem clearError_srom (s : State) : (clearError s).srom = s.srom := rfl
@[simp] theorem clearError_ntpSeconds (s : State) : (clearError s).ntpSeconds = s.ntpSeconds := rfl
@[simp] theorem clearError_ntpRaw (s : State) : (clearError s).ntpRaw = s.ntpRaw := rfl
@[simp] theorem clearError_ntpElapsed (s : State) : (clearError s).ntpElapsed = s.ntpElapsed := rfl
@[simp] theorem clearError_ntpRxLen (s : State) : (clearError s).ntpRxLen = s.ntpRxLen := rfl
@[simp] theorem clearError_buf (s : State) : (clearError s).buf = s.buf := rfl
@[simp] theorem clearError_rx (s : State) : (clearError s).rx = s.rx := rfl
@[simp] theorem clearError_seq (s : State) : (clearError s).seq = s.seq := rfl
@[simp] theorem clearError_line (s : State) : (clearError s).line = s.line := rfl
@[simp] theorem clearError_tickDiv (s : State) : (clearError s).tickDiv = s.tickDiv := rfl
@[simp] theorem clearError_hist (s : State) : (clearError s).hist = s.hist := rfl
@[simp] theorem clearError_inReset (s : State) : (clearError s).inReset = s.inReset := rfl
@[simp] theorem clearError_program (s : State) : (clearError s).program = s.program := rfl
@[simp] theorem clearError_schedule (s : State) : (clearError s).schedule = s.schedule := rfl
@[simp] theorem clearError_busAnswers (s : State) : (clearError s).busAnswers = s.busAnswers := rfl
@[simp] theorem clearError_draws (s : State) : (clearError s).draws = s.draws := rfl
@[simp] theorem clearError_readLog (s : State) : (clearError s).readLog = s.readLog := rfl

end Sys2Proof.Machine
end

