-- ==== Sys2Proof/Laws/Ops.lean ====
section
/-! SUPPORT. What each shared operation does, said once: recording an error, drawing answers, the bus
micro-operations, the prelude, and running a command. -/

namespace Sys2Proof.Machine

/-! ### Errors -/

/-- Raising an error changes ERROR alone (60_exceptions.md R222). -/
theorem raiseError_eq (code : ErrorCode) (s : State) :
    raiseError code s = { s with
      errCode := if s.errCode = .none then code else s.errCode
      errMore := if s.errCode = .none then s.errMore else true } := by
  unfold raiseError; split <;> simp [*]

@[simp] theorem raiseError_busy (code : ErrorCode) (s : State) : (raiseError code s).busy = s.busy := by
  simp [raiseError_eq]
@[simp] theorem raiseError_seq (code : ErrorCode) (s : State) : (raiseError code s).seq = s.seq := by
  simp [raiseError_eq]
@[simp] theorem raiseError_line (code : ErrorCode) (s : State) : (raiseError code s).line = s.line := by
  simp [raiseError_eq]
@[simp] theorem raiseError_spu (code : ErrorCode) (s : State) : (raiseError code s).spu = s.spu := by
  simp [raiseError_eq]
@[simp] theorem raiseError_hist (code : ErrorCode) (s : State) : (raiseError code s).hist = s.hist := by
  simp [raiseError_eq]
@[simp] theorem raiseError_inReset (code : ErrorCode) (s : State) : (raiseError code s).inReset = s.inReset := by
  simp [raiseError_eq]

/-! ### Answers -/

/-- Drawing an answer gives answer 0 and moves past it. -/
theorem drawAnswer_eq (s : State) : drawAnswer s = (s.answer 0, s.afterAnswers 1) := by
  unfold drawAnswer State.answer State.afterAnswers
  cases h : s.busAnswers <;> simp

@[simp] theorem afterAnswers_zero (s : State) : s.afterAnswers 0 = s := by simp [State.afterAnswers]

/-- Answers after answers. -/
theorem afterAnswers_add (s : State) (m k : Nat) : (s.afterAnswers m).afterAnswers k = s.afterAnswers (m + k) := by
  simp [State.afterAnswers]; omega

theorem answer_afterAnswers (s : State) (m j : Nat) : (s.afterAnswers m).answer j = s.answer (m + j) := by
  simp only [State.answer, State.afterAnswers, List.getElem?_drop, List.length_drop]
  cases h : s.busAnswers[m + j]? with
  | some b => rfl
  | none =>
    have := List.getElem?_eq_none_iff.mp h
    simp only
    congr 1; omega

/-- The answers depend on State's queue and count alone. -/
theorem answer_congr {s t : State} (h : s.busAnswers = t.busAnswers) (h' : s.draws = t.draws) (j : Nat) :
    s.answer j = t.answer j := by simp [State.answer, h, h']

/-! ### Bus micro-operations (41_onewire.md R131) -/

theorem busReset_eq (s : State) :
    busReset s = (s.answer 0, logEvent (.reset (s.answer 0)) (s.afterAnswers 1)) := by
  simp [busReset, drawAnswer_eq]

theorem busReadBit_eq (s : State) :
    busReadBit s = (s.answer 0, logEvent (.r (s.answer 0)) (s.afterAnswers 1)) := by
  simp [busReadBit, drawAnswer_eq]

/-- The prelude's step, or the first micro-operation (41_onewire.md R135). -/
theorem afterRelease_cases (first : State → State) (s : State) :
    (s.line = .spu ∧ afterRelease first s = releaseSpu s) ∨
      (s.line = .released ∧ afterRelease first s = first s) := by
  unfold afterRelease; cases h : s.line <;> simp

/-! ### Running a command -/

theorem runMicro_idle (micro : MicroState → State → State) (n : Nat) {s : State} (h : s.seq = .idle) :
    runMicro micro n s = s := by cases n <;> simp [runMicro, h]

theorem runMicro_running (micro : MicroState → State → State) (n : Nat) {s : State} {i : Instr} {k : MicroState}
    (h : s.seq = .running i k) : runMicro micro (n + 1) s = runMicro micro n (micro k s) := by
  simp [runMicro, h]

/-- Running in two parts. -/
theorem runMicro_add (micro : MicroState → State → State) (m n : Nat) (s : State) :
    runMicro micro (m + n) s = runMicro micro n (runMicro micro m s) := by
  induction m generalizing s with
  | zero => simp [runMicro]
  | succ m ih =>
    rw [Nat.add_right_comm]
    cases h : s.seq with
    | idle => simp [runMicro_idle _ _ h]
    | running i k => rw [runMicro_running _ _ h, runMicro_running _ _ h, ih]

/-- What `issueAndRun` answers, in its three cases (20_memory.md R66, 70_reset_and_hazards.md R250). -/
theorem issueAndRun_cases (i : Instr) (n : Nat) (micro : MicroState → State → State) (s : State) :
    (s.inReset = true ∧ issueAndRun i n micro s = .fault .hostAccessInReset) ∨
    (s.inReset = false ∧ s.busy = true ∧ issueAndRun i n micro s = .next (raiseError .busyWrite s)) ∨
    (s.inReset = false ∧ s.busy = false ∧ issueAndRun i n micro s = .next (runMicro micro n (accept i s))) := by
  unfold issueAndRun; cases s.inReset <;> cases s.busy <;> simp

/-- An invariant of the accepted state that every micro-operation keeps holds after the run. -/
theorem runMicro_induction {P : State → Prop} {micro : MicroState → State → State}
    (step : ∀ s i k, s.seq = .running i k → P s → P (micro k s)) (n : Nat) {s : State} (h : P s) :
    P (runMicro micro n s) := by
  induction n generalizing s with
  | zero => exact h
  | succ n ih =>
    cases hs : s.seq with
    | idle => rwa [runMicro_idle _ _ hs]
    | running i k => rw [runMicro_running _ _ hs]; exact ih (step s i k hs h)

end Sys2Proof.Machine
end

