-- ==== Sys2Proof/Laws/Ntp.lean ====
section
/-! SUPPORT. What a delivery and a tick can do (43_ntp.md R196, R197). -/

namespace Sys2Proof.Machine

/-- A delivery: parsed in an open window, else only its length is kept (43_ntp.md R197). -/
theorem deliver_cases (len : BitVec 16) (s : State) :
    (s.ntpState = .awaiting ∧ 48 ≤ len.toNat ∧ deliver len s = { s with
      ntpRxLen := len
      ntpRaw := replySeconds s
      ntpSeconds := unixSeconds (replySeconds s)
      ntpState := .done }) ∨
    ((s.ntpState ≠ .awaiting ∨ len.toNat < 48) ∧ deliver len s = { s with ntpRxLen := len }) := by
  unfold deliver
  by_cases h : s.ntpState = .awaiting <;> by_cases h' : 48 ≤ len.toNat <;> simp [h, h']; try omega

/-- A tick: counted and perhaps the end of the window while AWAITING, else nothing (43_ntp.md R196). -/
theorem ntpTimerStep_cases (s : State) :
    (s.inReset = false ∧ s.ntpState = .awaiting ∧ ntpTimerStep s = { s with
      ntpElapsed := s.ntpElapsed + 1#16
      ntpState := if (s.ntpElapsed + 1#16).toNat = 1500 then .timedOut else .awaiting }) ∨
    ((s.inReset = true ∨ s.ntpState ≠ .awaiting) ∧ ntpTimerStep s = s) := by
  unfold ntpTimerStep
  cases h : s.inReset <;> by_cases h' : s.ntpState = .awaiting <;> simp [h', Config.ntpTimeoutMs]

end Sys2Proof.Machine
end

