-- ==== Sys2Proof/Laws/Operands.lean ====
section
/-! SUPPORT. Reading what was written into a byte array, byte by byte, bit by bit and word by word. -/

namespace Sys2Proof.Machine

variable {n : Nat}

theorem byteAt_eq_getElem (x : Vector Byte n) {i : Nat} (h : i < n) : byteAt x i = x[i] := by
  simp [byteAt, Vector.getD, h]

/-- Past its end an array reads 0. -/
theorem byteAt_of_le (x : Vector Byte n) {i : Nat} (h : n ≤ i) : byteAt x i = 0#8 := by
  simp [byteAt, Vector.getD, Nat.not_lt.mpr h]

theorem byteAt_setByte (x : Vector Byte n) (i j : Nat) (b : Byte) :
    byteAt (setByte x i b) j = if i = j ∧ j < n then b else byteAt x j := by
  by_cases hj : j < n
  · rw [byteAt_eq_getElem _ hj, byteAt_eq_getElem _ hj]
    simp [setByte, Vector.getElem_setIfInBounds, hj]
  · simp [byteAt_of_le _ (Nat.le_of_not_lt hj), hj]

theorem byteAt_setByte_ne (x : Vector Byte n) {i j : Nat} (b : Byte) (h : i ≠ j) :
    byteAt (setByte x i b) j = byteAt x j := by simp [byteAt_setByte, h]

@[simp] theorem byteAt_replicate (i : Nat) : byteAt (Vector.replicate n 0#8) i = 0#8 := by
  by_cases h : i < n
  · simp [byteAt_eq_getElem _ h]
  · exact byteAt_of_le _ (Nat.le_of_not_lt h)

/-- Two arrays with the same bytes are equal. -/
theorem eq_of_byteAt {x y : Vector Byte n} (h : ∀ i, i < n → byteAt x i = byteAt y i) : x = y := by
  ext i hi : 1
  simpa [byteAt_eq_getElem _ hi] using h i hi

theorem getLsbD_setBit (v : Byte) (i j : Nat) (b : Bool) :
    (setBit v i b).getLsbD j = if i = j ∧ j < 8 then b else v.getLsbD j := by
  by_cases hj : j < 8
  · cases b <;> by_cases hij : i = j <;> simp [setBit, hj, hij] <;> omega
  · simp [BitVec.getLsbD_of_ge _ _ (Nat.le_of_not_lt hj), hj]

theorem arrayBit_setArrayBit (x : Vector Byte n) {i j : Nat} (b : Bool) (hj : j < 8 * n) :
    arrayBit (setArrayBit x i b) j = if i = j then b else arrayBit x j := by
  have hjn : j / 8 < n := by omega
  simp only [arrayBit, setArrayBit, byteAt_setByte]
  by_cases hd : i / 8 = j / 8
  · have : (i % 8 = j % 8 ∧ j % 8 < 8) ↔ i = j := by omega
    simp only [hd, hjn, and_self, if_true, getLsbD_setBit, this]
  · have : i ≠ j := fun h => hd (by rw [h])
    simp [hd, this]

/-- Two arrays with the same bits are equal. -/
theorem eq_of_arrayBit {x y : Vector Byte n} (h : ∀ j, j < 8 * n → arrayBit x j = arrayBit y j) : x = y := by
  refine eq_of_byteAt fun i hi => ?_
  ext j hj
  have := h (8 * i + j) (by omega)
  simp only [arrayBit, show (8 * i + j) / 8 = i by omega, show (8 * i + j) % 8 = j by omega] at this
  simpa [BitVec.getLsbD_eq_getElem hj] using this

/-- Byte `j` of the array after a word was unpacked at `i`. -/
theorem byteAt_unpackWord (x : Vector Byte n) (i j : Nat) (v : Word) (h : i + 4 ≤ n) :
    byteAt (unpackWord x i v) j =
      if i ≤ j ∧ j < i + 4 then v.extractLsb' (8 * (j - i)) 8 else byteAt x j := by
  simp only [unpackWord, byteAt_setByte]
  by_cases h0 : j = i
  · subst h0; simp; omega
  by_cases h1 : j = i + 1
  · subst h1; simp; omega
  by_cases h2 : j = i + 2
  · subst h2; simp; omega
  by_cases h3 : j = i + 3
  · subst h3; simp; omega
  · have : ¬ (i ≤ j ∧ j < i + 4) := by omega
    simp [this, Ne.symm h0, Ne.symm h1, Ne.symm h2, Ne.symm h3]

/-- A word unpacked is the word packed there. -/
theorem packWord_unpackWord (x : Vector Byte n) (i : Nat) (v : Word) (h : i + 4 ≤ n) :
    packWord (unpackWord x i v) i = v := by
  simp only [packWord, byteAt_unpackWord x i _ v h]
  apply BitVec.eq_of_getLsbD_eq
  intro j hj
  simp only [BitVec.getLsbD_append]
  rcases Nat.lt_or_ge j 8 with h0 | h0
  · simp [h0]
  rcases Nat.lt_or_ge j 16 with h1 | h1
  · simp [Nat.not_lt.mpr h0, show j - 8 < 8 by omega, show 8 + (j - 8) = j by omega]
  rcases Nat.lt_or_ge j 24 with h2 | h2
  · simp [Nat.not_lt.mpr h0, show ¬ j - 8 < 8 by omega, show j - 8 - 8 < 8 by omega,
      show 16 + (j - 8 - 8) = j by omega]
  · simp [Nat.not_lt.mpr h0, show ¬ j - 8 < 8 by omega, show ¬ j - 8 - 8 < 8 by omega,
      show j - 8 - 8 - 8 < 8 by omega, show 24 + (j - 8 - 8 - 8) = j by omega]

/-- Byte `j` of a packed word (20_memory.md R64). -/
theorem extractLsb'_packWord (x : Vector Byte n) (i : Nat) {j : Nat} (h : j < 4) :
    (packWord x i).extractLsb' (8 * j) 8 = byteAt x (i + j) := by
  apply BitVec.eq_of_getLsbD_eq
  intro b hb
  have hj : j = 0 ∨ j = 1 ∨ j = 2 ∨ j = 3 := by omega
  rcases hj with rfl | rfl | rfl | rfl <;>
    simp only [packWord, BitVec.getLsbD_extractLsb', BitVec.getLsbD_append, hb, decide_true, Bool.true_and] <;>
    simp [hb, show ¬ (24 + b < 8) by omega, show ¬ (16 + b < 8) by omega, show 24 + b - 8 = 16 + b by omega,
      show 16 + b - 8 = 8 + b by omega]

/-- Unpacking a word of another array copies its four bytes. -/
theorem byteAt_unpackWord_packWord (x y : Vector Byte n) (i j : Nat) (h : i + 4 ≤ n) :
    byteAt (unpackWord x i (packWord y i)) j = if i ≤ j ∧ j < i + 4 then byteAt y j else byteAt x j := by
  rw [byteAt_unpackWord _ _ _ _ h]
  split
  · rw [extractLsb'_packWord _ _ (by omega), show i + (j - i) = j by omega]
  · rfl

end Sys2Proof.Machine
end

