-- ==== Sys2Proof/Laws/Registers.lean ====
section
/-! SUPPORT. The register map and what one host access can do (10_state.md R20, 20_memory.md R61 to R67). -/

namespace Sys2Proof.Machine

/-! ### The map -/

theorem regAt_offset (r : Reg) : regAt r.offset = some r := by
  cases r with
  | rom k => revert k; decide
  | srom k => revert k; decide
  | buf k => revert k; decide
  | ntpRx k => revert k; decide
  | ntpTx k => revert k; decide
  | _ => rfl

theorem offset_mod (r : Reg) : r.offset % 4 = 0 := by cases r <;> simp only [Reg.offset] <;> omega

theorem offset_lt (r : Reg) : r.offset < 256 := by cases r <;> simp only [Reg.offset] <;> omega

@[simp] theorem windowOffset_pBase_add {off : Nat} (h : off < 256) :
    windowOffset (Config.pBase + off) = some off := by
  simp [windowOffset, Config.windowBytes, h]

@[simp] theorem admitted_iff (off : Nat) (width : AccessWidth) :
    admitted off width = true ↔ off % 4 = 0 ∧ width = .w32 := by simp [admitted]

@[simp] theorem admitted_offset (r : Reg) : admitted r.offset .w32 = true := by simp [offset_mod]

/-! ### Reads -/

/-- An admitted read of a register: its value, or a fresh free value where the read is unspecified. -/
theorem readOffset_reg (r : Reg) (s : State) :
    readOffset r.offset .w32 s = if unspecifiedNow s r then drawReadValue s else (regValue s r, s) := by
  simp [readOffset, regAt_offset]

/-- What a read can do to the state: nothing, a draw, or BAD_ACCESS. -/
theorem readOffset_cases (off : Nat) (width : AccessWidth) (s : State) :
    (admitted off width = true ∧ (readOffset off width s).2 = s) ∨
      (admitted off width = true ∧ (readOffset off width s).2 = { s with draws := s.draws + 1 }) ∨
      (admitted off width = false ∧ (readOffset off width s).2 = raiseError .badAccess s) := by
  unfold readOffset
  cases h : admitted off width
  · simp
  · cases regAt off with
    | none => simp
    | some r => cases hu : unspecifiedNow s r <;> simp [hu, drawReadValue]

/-! ### Writes -/

/-- An admitted write of a register. -/
theorem writeOffset_reg (r : Reg) (v : Word) (s : State) : writeOffset r.offset .w32 v s = writeReg r v s := by
  simp [writeOffset, regAt_offset]

/-- The effects a write can have. -/
inductive WriteEffect (v : Word) (s : State) : State → Prop where
  | ignored : WriteEffect v s s
  | error (code : ErrorCode) : WriteEffect v s (raiseError code s)
  | cleared : WriteEffect v s (clearError s)
  | accepted (i : Instr) : s.busy = false → decode v = some i → WriteEffect v s (accept i s)
  | rom (rom' : Vector Byte Config.romBytes) : s.busy = false → WriteEffect v s { s with rom := rom' }
  | buf (buf' : Vector Byte Config.bufBytes) : s.busy = false → WriteEffect v s { s with buf := buf' }
  | rx (rx' : Vector Byte Config.ntpFrameBytes) : WriteEffect v s { s with rx := rx' }
  | delivery : WriteEffect v s (deliver (v.extractLsb' 0 16) s)

theorem issue_effect (v : Word) (s : State) : WriteEffect v s (issue v s) := by
  unfold issue
  cases h : s.busy with
  | true => exact .error _
  | false =>
    cases hd : decode v with
    | none => exact .error _
    | some i => exact .accepted i h hd

theorem writeReg_effect (r : Reg) (v : Word) (s : State) : WriteEffect v s (writeReg r v s) := by
  cases r with
  | cmd => exact issue_effect v s
  | error => exact .cleared
  | rom k =>
    by_cases h : s.busy = true
    · simpa [writeReg, unlessBusy, h] using WriteEffect.error (v := v) (s := s) .busyWrite
    · have h' : s.busy = false := by simpa using h
      rw [writeReg, unlessBusy, if_neg h]
      exact .rom _ h'
  | ntpRxLen => exact .delivery
  | buf k =>
    by_cases h : s.busy = true
    · simpa [writeReg, unlessBusy, h] using WriteEffect.error (v := v) (s := s) .busyWrite
    · have h' : s.busy = false := by simpa using h
      rw [writeReg, unlessBusy, if_neg h]
      exact .buf _ h'
  | ntpRx k => exact .rx _
  | _ => exact .ignored

/-- What a write can do to the state. -/
theorem writeOffset_effect (off : Nat) (width : AccessWidth) (v : Word) (s : State) :
    WriteEffect v s (writeOffset off width v s) := by
  unfold writeOffset
  cases admitted off width with
  | false => exact .error _
  | true =>
    cases regAt off with
    | none => exact .ignored
    | some r => exact writeReg_effect r v s

end Sys2Proof.Machine
end

