-- ==== Sys2Proof/Laws/Sequencer.lean ====
section
/-! SUPPORT. What one Sequencer step of any command can do: it stays within its command, it leaves the agents' own
data, ERROR and the reset input alone, it only appends to the bus history, and only NTP_START touches the NTP unit. -/

namespace Sys2Proof.Machine

/-! ### The fields an answer drawn leaves alone -/

@[simp] theorem afterAnswers_busy (s : State) (m : Nat) : (s.afterAnswers m).busy = s.busy := rfl
@[simp] theorem afterAnswers_seq (s : State) (m : Nat) : (s.afterAnswers m).seq = s.seq := rfl
@[simp] theorem afterAnswers_line (s : State) (m : Nat) : (s.afterAnswers m).line = s.line := rfl
@[simp] theorem afterAnswers_spu (s : State) (m : Nat) : (s.afterAnswers m).spu = s.spu := rfl
@[simp] theorem afterAnswers_hist (s : State) (m : Nat) : (s.afterAnswers m).hist = s.hist := rfl
@[simp] theorem afterAnswers_srom (s : State) (m : Nat) : (s.afterAnswers m).srom = s.srom := rfl
@[simp] theorem afterAnswers_lastDevice (s : State) (m : Nat) : (s.afterAnswers m).lastDevice = s.lastDevice := rfl
@[simp] theorem afterAnswers_lastDiscrepancy (s : State) (m : Nat) :
    (s.afterAnswers m).lastDiscrepancy = s.lastDiscrepancy := rfl
@[simp] theorem afterAnswers_presence (s : State) (m : Nat) : (s.afterAnswers m).presence = s.presence := rfl

/-! ### What a step leaves alone -/

/-- The agents' own data but the Bus's answers, ERROR and the reset input are the same in `s` and `t`. -/
structure SameOutside (s t : State) : Prop where
  program : t.program = s.program
  schedule : t.schedule = s.schedule
  readLog : t.readLog = s.readLog
  inReset : t.inReset = s.inReset
  errCode : t.errCode = s.errCode
  errMore : t.errMore = s.errMore

/-- No Sequencer step touches the agents' own data, ERROR or the reset input (60_exceptions.md R224). -/
theorem microOf_sameOutside (i : Instr) (k : MicroState) (s : State) : SameOutside s (microOf i k s) := by
  cases i <;>
    simp only [microOf, microOwReset, microOwSelect, microOwWrite, microOwRead, microSrchNext, microSrchReset,
      microCrc, microNtpStart, afterRelease, owResetPulse, owSelectSlot, owWriteSlot, owReadSlot, searchStart,
      searchPulse, searchByteSlot, searchReadFirst, searchReadSecond, searchWriteSlot, finishSearch, busReset_eq,
      busReadBit_eq] <;>
    (repeat' split) <;> exact ⟨rfl, rfl, rfl, rfl, rfl, rfl⟩

/-- A Sequencer step of `i` completes it or goes on with it, and BUSY goes with it (10_state.md R24, R42). -/
theorem microOf_seq (i : Instr) (k : MicroState) (s : State) (h : s.seq = .running i k) :
    ((microOf i k s).seq = .idle ∧ (microOf i k s).busy = false) ∨
      (∃ k', (microOf i k s).seq = .running i k' ∧ (microOf i k s).busy = s.busy) := by
  cases i <;>
    simp only [microOf, microOwReset, microOwSelect, microOwWrite, microOwRead, microSrchNext, microSrchReset,
      microCrc, microNtpStart, afterRelease, owResetPulse, owSelectSlot, owWriteSlot, owReadSlot, searchStart,
      searchPulse, searchByteSlot, searchReadFirst, searchReadSecond, searchWriteSlot, finishSearch, busReset_eq,
      busReadBit_eq] <;>
    (repeat' split) <;> simp [h]

/-- The bus history only grows in a Sequencer step, and the events added give the line and PRESENCE (10_state.md R25,
R43). -/
theorem microOf_hist (i : Instr) (k : MicroState) (s : State) :
    ∃ events, (microOf i k s).hist = s.hist ++ events ∧ (microOf i k s).line = lineAfter s.line events ∧
      (microOf i k s).presence = presenceAfter s.presence events := by
  cases i <;>
    simp only [microOf, microOwReset, microOwSelect, microOwWrite, microOwRead, microSrchNext, microSrchReset,
      microCrc, microNtpStart, afterRelease, owResetPulse, owSelectSlot, owWriteSlot, owReadSlot, searchStart,
      searchPulse, searchByteSlot, searchReadFirst, searchReadSecond, searchWriteSlot, finishSearch, busReset_eq,
      busReadBit_eq] <;>
    (repeat' split) <;>
    first
      | exact ⟨[], (List.append_nil _).symm, rfl, rfl⟩
      | exact ⟨[_], rfl, rfl, rfl⟩

/-- Only NTP_START touches the NTP unit (43_ntp.md R193). -/
theorem microOf_ntp (i : Instr) (k : MicroState) (s : State) (h : i ≠ .ntpStart) :
    (microOf i k s).ntpState = s.ntpState ∧ (microOf i k s).ntpElapsed = s.ntpElapsed ∧
      (microOf i k s).ntpRaw = s.ntpRaw ∧ (microOf i k s).ntpSeconds = s.ntpSeconds ∧
      (microOf i k s).ntpRxLen = s.ntpRxLen ∧ (microOf i k s).rx = s.rx ∧ (microOf i k s).tickDiv = s.tickDiv := by
  cases i <;>
    simp only [microOf, microOwReset, microOwSelect, microOwWrite, microOwRead, microSrchNext, microSrchReset,
      microCrc, afterRelease, owResetPulse, owSelectSlot, owWriteSlot, owReadSlot, searchStart,
      searchPulse, searchByteSlot, searchReadFirst, searchReadSecond, searchWriteSlot, finishSearch, busReset_eq,
      busReadBit_eq, ne_eq, not_true_eq_false] at h ⊢ <;>
    (repeat' split) <;> exact ⟨rfl, rfl, rfl, rfl, rfl, rfl, rfl⟩

/-- Only the search's commands touch the search state (42_search.md R161). -/
theorem microOf_search (i : Instr) (k : MicroState) (s : State) (h : i ≠ .srchNext) (h' : i ≠ .srchReset) :
    (microOf i k s).lastDiscrepancy = s.lastDiscrepancy ∧ (microOf i k s).lastDevice = s.lastDevice ∧
      (microOf i k s).srom = s.srom := by
  cases i <;>
    simp only [microOf, microOwReset, microOwSelect, microOwWrite, microOwRead, microCrc, microNtpStart, afterRelease, owResetPulse, owSelectSlot, owWriteSlot, owReadSlot, busReset_eq,
      busReadBit_eq, ne_eq, not_true_eq_false] at h h' ⊢ <;>
    (repeat' split) <;> exact ⟨rfl, rfl, rfl⟩

/-! ### The Sequencer's step -/

/-- What the Sequencer's step is, in its three cases. -/
theorem sequencerStep_cases (s : State) :
    (s.inReset = true ∧ sequencerStep s = s) ∨ (s.inReset = false ∧ s.seq = .idle ∧ sequencerStep s = s) ∨
      (∃ i k, s.inReset = false ∧ s.seq = .running i k ∧ sequencerStep s = microOf i k s) := by
  unfold sequencerStep
  cases h : s.inReset <;> cases h' : s.seq <;> simp

theorem sequencerStep_running {s : State} {i : Instr} {k : MicroState} (h : s.inReset = false)
    (h' : s.seq = .running i k) : sequencerStep s = microOf i k s := by simp [sequencerStep, h, h']

theorem sequencerStep_idle {s : State} (h : s.seq = .idle) : sequencerStep s = s := by simp [sequencerStep, h]

/-- The meaning of a command runs its own micro-operations (Dispatch). -/
theorem exec_eq (i : Instr) (s : State) : exec i s = issueAndRun i (maxSteps i) (microOf i) s := by
  cases i <;> rfl

end Sys2Proof.Machine
end

