-- ==== Sys2Proof/Laws/Step.lean ====
section
/-! SUPPORT. What one step of the machine can do, said once: the effects of the agents' turns (00_scope.md R7). -/

namespace Sys2Proof.Machine

/-- The effects a turn can have on the state it is taken in, its own schedule entry and program statement aside. -/
inductive TurnEffect (s : State) : State → Prop where
  /-- Nothing: an agent that is not enabled, an access outside the window, a read. -/
  | same : TurnEffect s s
  /-- A host read: its value is logged, and at most an error recorded or a free value drawn. -/
  | read (log : List Word) (draws : Nat) : TurnEffect s { s with readLog := log, draws := draws }
  | badRead (log : List Word) : TurnEffect s { raiseError .badAccess s with readLog := log }
  /-- One round of a waiting loop. -/
  | poll (log : List Word) (program : List HostStmt) : TurnEffect s { s with readLog := log, program := program }
  | write (v : Word) (t : State) : s.inReset = false → WriteEffect v s t → TurnEffect s t
  | refusedCommand (code : ErrorCode) : TurnEffect s (raiseError code s)
  | ran (i : Instr) : s.inReset = false → s.busy = false → i.wf = true →
      TurnEffect s (runMicro (microOf i) (maxSteps i) (accept i s))
  | sequencer : TurnEffect s (sequencerStep s)
  | tick : TurnEffect s (ntpTimerStep s)
  | resetPin (level : Bool) : TurnEffect s (resetPinStep level s)

/-- What the decoder gives is well formed (30_encoding.md R92). -/
theorem decode_wf {w : Word} {i : Instr} (h : decode w = some i) : i.wf = true := by
  unfold decode decodeWord decodePlain decodeOwWrite decodeOwRead decodeCrc at h
  repeat' split at h
  all_goals first
    | contradiction
    | (rename_i hd; repeat' split at hd)
  all_goals first
    | contradiction
    | (cases hd; cases h; simp_all [Instr.wf])

theorem hostRead_effect (addr : Nat) (width : AccessWidth) (s t : State) (h : hostRead addr width s = .next t) :
    TurnEffect s t := by
  unfold hostRead at h
  cases hw : windowOffset addr with
  | none => simp only [hw] at h; cases h; exact .same
  | some off =>
    cases hr : s.inReset with
    | true => simp [hw, hr] at h
    | false =>
      simp only [hw, hr, Bool.false_eq_true, if_false] at h
      cases h
      rcases readOffset_cases off width s with ⟨-, h⟩ | ⟨-, h⟩ | ⟨-, h⟩ <;> rw [h]
      · exact .read _ _
      · exact .read _ _
      · exact .badRead _

theorem hostWrite_effect (addr : Nat) (width : AccessWidth) (v : Word) (s t : State)
    (h : hostWrite addr width v s = .next t) : TurnEffect s t := by
  unfold hostWrite at h
  cases hw : windowOffset addr with
  | none => simp only [hw] at h; cases h; exact .same
  | some off =>
    cases hr : s.inReset with
    | true => simp [hw, hr] at h
    | false =>
      simp only [hw, hr, Bool.false_eq_true, if_false] at h
      cases h
      exact .write v _ hr (writeOffset_effect off width v s)

theorem hostPoll_effect (again : HostStmt) (finished : Bool) (s t : State)
    (h : hostPoll again finished s = .next t) : TurnEffect s t := by
  unfold hostPoll at h
  by_cases hr : s.inReset = true
  · simp [hr] at h
  · rw [if_neg hr] at h
    cases h
    exact .poll _ _

theorem runCommandWord_effect (w : Word) (s t : State) (h : runCommandWord w s = .next t) : TurnEffect s t := by
  unfold runCommandWord at h
  cases hr : s.inReset with
  | true => simp [hr] at h
  | false =>
    by_cases hb : s.busy = true
    · simp only [hr, hb, Bool.false_eq_true, if_false, if_true] at h
      cases h; exact .refusedCommand _
    · simp only [hr, hb, Bool.false_eq_true, if_false] at h
      cases hd : decode w with
      | none => simp only [hd] at h; cases h; exact .refusedCommand _
      | some i =>
        simp only [hd, exec_eq, issueAndRun, hr, hb, Bool.false_eq_true, if_false] at h
        cases h
        exact .ran i hr (by simpa using hb) (decode_wf hd)

/-- A turn of the host, of any other agent or of the reset input, on the state with its program statement taken off. -/
theorem turnStep_effect (turn : Turn) (s t : State) (h : turnStep turn s = .next t) :
    TurnEffect s t ∨ ∃ rest, TurnEffect { s with program := rest } t := by
  cases turn with
  | host =>
    simp only [turnStep, hostStep] at h
    cases hp : s.program with
    | nil => simp only [hp] at h; cases h; exact .inl .same
    | cons stmt rest =>
      refine .inr ⟨rest, ?_⟩
      simp only [hp] at h
      cases stmt with
      | rd addr width => exact hostRead_effect _ _ _ _ h
      | wr addr width v => exact hostWrite_effect _ _ _ _ _ h
      | waitIdle => exact hostPoll_effect _ _ _ _ h
      | waitNtp => exact hostPoll_effect _ _ _ _ h
      | runCommand w => exact runCommandWord_effect _ _ _ h
  | sequencer => cases h; exact .inl .sequencer
  | ntpTimer => cases h; exact .inl .tick
  | resetPin level => cases h; exact .inl (.resetPin level)

/-- What one step can do: nothing, or one turn's effect on the state with the schedule's entry taken off and, on the
host's turn, its program statement taken off. -/
theorem step_effect {s t : State} (h : step s = .next t) :
    ∃ turns rest, TurnEffect { s with schedule := turns, program := rest } t := by
  unfold step at h
  cases hs : s.schedule with
  | nil =>
    simp only [hs] at h
    cases hd : defaultTurn s with
    | none =>
      simp only [hd] at h; cases h
      exact ⟨s.schedule, s.program, .same⟩
    | some turn =>
      simp only [hd] at h
      rcases turnStep_effect turn s t h with h | ⟨rest, h⟩
      · exact ⟨s.schedule, s.program, h⟩
      · exact ⟨s.schedule, rest, h⟩
  | cons turn turns =>
    simp only [hs] at h
    rcases turnStep_effect turn _ t h with h | ⟨rest, h⟩
    · exact ⟨turns, s.program, h⟩
    · exact ⟨turns, rest, h⟩

/-- A step on the host's turn is the host's step, the turn taken off. -/
theorem step_hostTurn {s : State} {turns : List Turn} (h : s.schedule = .host :: turns) :
    step s = hostStep { s with schedule := turns } := by simp [step, h, turnStep]

/-- A run of `n + 1` steps whose first answers `t` is the run of `n` from `t`. -/
theorem core_run_next {s t : State} (n : Nat) (h : step s = .next t) :
    Sys2Proof.core.run (n + 1) s = Sys2Proof.core.run n t := by
  have h' : Sys2Proof.core.step (s : Sys2Proof.core.State) = .next t := h
  rw [Host.Core.run.eq_2 Sys2Proof.core (s : Sys2Proof.core.State) n, h']

/-- The step on `withFetchWord` is the run of its word. -/
theorem step_withFetchWord (s : State) (nbits w : Nat) :
    step (s.withFetchWord nbits w) = runCommandWord (BitVec.ofNat 32 (w % 2 ^ nbits)) s := rfl

end Sys2Proof.Machine
end

