-- ==== Sys2Proof/Laws/HostProgram.lean ====
section
/-! SUPPORT. The host's part of a hand-over (43_ntp.md R195) and of the end of a run (70_reset_and_hazards.md R273). -/

namespace Sys2Proof.Machine.HostProgram

/-- RX after a hand-over, byte by byte: the datagram's bytes as far as it reaches, the old bytes beyond it. -/
theorem byteAt_rxWith (rx : Vector Byte Config.ntpFrameBytes) (datagram : List Byte) {i : Nat} (h : i < 48) :
    byteAt (rxWith rx datagram) i = if h : i < datagram.length then datagram[i] else byteAt rx i := by
  rw [byteAt_eq_getElem _ h]
  by_cases hd : i < datagram.length <;> simp [rxWith, hd]

/-- A word of RX is handed over exactly when the datagram reaches it. -/
theorem mem_handOver_words (datagram : List Byte) (k : Fin 12) :
    (k ∈ (List.finRange 12).filter fun k => decide (4 * k.val < datagram.length)) ↔ 4 * k.val < datagram.length := by
  simp

/-- A program that is done takes no step. -/
theorem runUntilDone_of_done (n : Nat) (started : Bool) {s : State} (h : s.program = []) :
    runUntilDone n started s = some (n, started, s) := by cases n <;> simp [runUntilDone, h]

/-- A program that is not done takes a step. -/
theorem runUntilDone_next (n : Nat) (started : Bool) {s t : State} (h : s.program ≠ []) (hs : step s = .next t) :
    runUntilDone (n + 1) started s = runUntilDone n (started || startsExchange s) t := by
  simp [runUntilDone, h, hs]

/-- Where `runUntilDone` answers, the program is done. -/
theorem runUntilDone_done {n left : Nat} {started ended : Bool} {s t : State}
    (h : runUntilDone n started s = some (left, ended, t)) : t.program = [] := by
  induction n generalizing started s with
  | zero =>
    by_cases hp : s.program = []
    · simp only [runUntilDone_of_done _ _ hp, Option.some.injEq, Prod.mk.injEq] at h
      rwa [← h.2.2]
    · simp [runUntilDone, hp] at h
  | succ n ih =>
    by_cases hp : s.program = []
    · simp only [runUntilDone_of_done _ _ hp, Option.some.injEq, Prod.mk.injEq] at h
      rwa [← h.2.2]
    · cases hs : step s with
      | next u => exact ih (runUntilDone_next n started hp hs ▸ h)
      | fault r => simp [runUntilDone, hp, hs] at h
      | refused r => simp [runUntilDone, hp, hs] at h

end Sys2Proof.Machine.HostProgram
end

