-- ==== Sys2Proof/Laws/PerInstr.lean ====
section
/-! SUPPORT. Statements for every command, one lemma per constructor. -/

/-! ### The word of a command matches the row of its mnemonic in the opcode table, and no other row (30_encoding.md
R92) -/

/-- Exactly the rows with the command's mnemonic match its word. -/
def Sys2Proof.Laws.WordMatchesItsRowOnly.Statement (i : Sys2Proof.Instr) : Prop :=
  ∀ r ∈ Sys2Proof.opcodeTable, r.matches (Sys2Proof.encode i) = (r.mnemonic == i.mnemonic)

namespace Sys2Proof.Laws.WordMatchesItsRowOnly

theorem owReset : Statement .owReset := by unfold Statement; decide

theorem owSelect : Statement .owSelect := by unfold Statement; decide

theorem owWrite (b : Byte) (spu : Bool) : Statement (.owWrite b spu) := by
  revert b spu; unfold Statement; decide +kernel

/-- ARG is 8 bits, so the word of a count depends on it modulo 256. -/
theorem owRead (n : Nat) : Statement (.owRead n) := by
  have h : ∀ b : Byte, ∀ r ∈ opcodeTable,
      r.matches (commandWord 0x04#8 b false false) = (r.mnemonic == "OW_READ") := by decide +kernel
  exact h (BitVec.ofNat 8 n)

theorem srchNext : Statement .srchNext := by unfold Statement; decide

theorem srchReset : Statement .srchReset := by unfold Statement; decide

theorem crc (src : CrcSource) (len : Nat) : Statement (.crc src len) := by
  have h : ∀ (b : Byte) (src : Bool), ∀ r ∈ opcodeTable,
      r.matches (commandWord 0x20#8 b false src) = (r.mnemonic == "CRC") := by decide +kernel
  exact h (BitVec.ofNat 8 len) src.bit

theorem ntpStart : Statement .ntpStart := by unfold Statement; decide

end Sys2Proof.Laws.WordMatchesItsRowOnly
end

