-- ==== Sys2Proof/Tests/Slice0.lean ====
section
/-! SUPPORT. Tests with results taken from the spec (the file and rule or vector is named at each), the well-formedness
smoke test, and for every statement with hypotheses a state and operands that meet them. -/

namespace Sys2Proof.Tests

set_option Elab.async false

open Sys2Proof.Machine

/-! ### Well-formedness: an ill-formed term for each check (30_encoding.md R92) -/

theorem test_wf_refuses_read_of_0 : (Instr.owRead 0).wf = false := by decide
theorem test_wf_refuses_read_of_17 : (Instr.owRead 17).wf = false := by decide
theorem test_wf_refuses_crc_buf_17 : (Instr.crc .buf 17).wf = false := by decide
theorem test_wf_refuses_crc_rom_9 : (Instr.crc .rom 9).wf = false := by decide

/-! ### Decoding: words written out bit by bit from spec/opcode_table.json's encodings -/

theorem test_decode_owReset : decode 0b00000000000000000000000000000001#32 = some .owReset := by decide
theorem test_decode_owSelect : decode 0b00000000000000000000000000000010#32 = some .owSelect := by decide
theorem test_decode_owWrite : decode 0b00000000000000010100010000000011#32 = some (.owWrite 0x44#8 true) := by decide
theorem test_decode_owRead : decode 0b00000000000000000000100100000100#32 = some (.owRead 9) := by decide
theorem test_decode_srchNext : decode 0b00000000000000000000000000010000#32 = some .srchNext := by decide
theorem test_decode_srchReset : decode 0b00000000000000000000000000010001#32 = some .srchReset := by decide
theorem test_decode_crc_rom : decode 0b00000000000000100000011100100000#32 = some (.crc .rom 7) := by decide
theorem test_decode_crc_buf : decode 0b00000000000000000001000000100000#32 = some (.crc .buf 16) := by decide
theorem test_decode_ntpStart : decode 0b00000000000000000000000000110000#32 = some .ntpStart := by decide

/-- Illegal words of 95_test_vectors.md 2.6, with the reason. -/
theorem test_decode_illegal :
    [0x00000000#32, 0x0002FF03#32, 0x00040003#32, 0x00000004#32, 0x00001104#32, 0x00020920#32, 0x00030720#32,
      0x00000101#32].map decodeWord =
    [.illegal .unassignedOpcode, .illegal .unusedField, .illegal .reservedBits, .illegal .argRange,
      .illegal .argRange, .illegal .argRange, .illegal .unusedField, .illegal .unusedField] := by decide

theorem test_decodeTableWord : decodeTableWord 32 0x00020720 = some (.crc .rom 7) := by decide
theorem test_encode_owWrite : encode (.owWrite 0x44#8 true) = 0x00014403#32 := by decide
theorem test_assembly : (Instr.owWrite 0x44#8 true).assembly = "OW_WRITE 68, spu" := by decide

/-- No two rows of the opcode table overlap (30_encoding.md R92). -/
theorem test_opcode_rows_do_not_overlap :
    opcodeTable.Pairwise fun r r' => r.pattern &&& (r.mask &&& r'.mask) ≠ r'.pattern &&& (r.mask &&& r'.mask) := by
  decide

/-! ### States and answers for the tests -/

/-- Id A of 95_test_vectors.md. -/
def idA : ReferenceBus.RomId := #v[0x28#8, 0xFF#8, 0x4C#8, 0x6A#8, 0x91#8, 0x16#8, 0x03#8, 0x2C#8]
/-- Id D, which differs from A first at search position 49. -/
def idD : ReferenceBus.RomId := #v[0x28#8, 0xFF#8, 0x4C#8, 0x6A#8, 0x91#8, 0x16#8, 0x04#8, 0xAF#8]

/-- The state after reset with id A in ROM. -/
def withA : State := { State.reset with rom := idA }
/-- The state after reset with the strong pull-up on. -/
def withHold : State := { State.reset with line := .spu, spu := true }
/-- BUF = 01 02 ... 10. -/
def countingBuf : Vector Byte 16 := Vector.ofFn fun i => BitVec.ofNat 8 (i.val + 1)
/-- The three slots of each position of a full search along `path`, the reference bus having a discrepancy at the
listed bits: the two answers and the bit written (41_onewire.md R133, 42_search.md R164). -/
def slotsOf (path : ReferenceBus.RomId) (discrepancies : List Nat) : List (Bool × Bool × Bool) :=
  (List.range 64).map fun m =>
    if m ∈ discrepancies then (false, false, arrayBit path m)
    else (arrayBit path m, !arrayBit path m, arrayBit path m)
/-- The answers of that search: presence, then two for each position. -/
def answersOf (path : ReferenceBus.RomId) (discrepancies : List Nat) : List Bool :=
  true :: (slotsOf path discrepancies).flatMap fun (a, c, _) => [a, c]
/-- The events of that search: the reset, the search byte, 192 slots. -/
def eventsOf (path : ReferenceBus.RomId) (discrepancies : List Nat) : List BusEvent :=
  .reset true :: (ReferenceBus.searchByteBits.map .w ++
    (slotsOf path discrepancies).flatMap fun (a, c, d) => [.r a, .r c, .w d])
/-- Reset, with the reference bus [A] to answer one search. -/
def onBusA : State := { State.reset with busAnswers := answersOf idA [] }
/-- Reset, with the reference bus [A, D] to answer the two searches of a pass: D first (95_test_vectors.md 2.4). -/
def onBusAD : State := { State.reset with busAnswers := answersOf idD [48] ++ answersOf idA [48] }
/-- A window opened, at the given time. -/
def windowAt (elapsed : BitVec 16) : State := { State.reset with ntpState := .awaiting, ntpElapsed := elapsed }

/-- The state after the machine's next step runs the word. -/
def after (w : Nat) (s : State) : Option State := outcomeState (step (s.withFetchWord 32 w))

/-! ### One step of each command -/

/-- 95_test_vectors.md 2.3: presence 1. -/
theorem test_owReset : (after 0x1 { State.reset with busAnswers := [true] }).map (fun t => (statusWord t, t.hist)) =
    some (0x00000002#32, [.reset true]) := by decide +kernel
/-- 2.3: from SPU = 1. -/
theorem test_owReset_ends_the_hold : (after 0x1 { withHold with busAnswers := [true] }).map
    (fun t => (statusWord t, t.hist)) = some (0x00000002#32, [.spuOff, .reset true]) := by decide +kernel
/-- 41_onewire.md R141's example, and the last byte 0x2C. -/
theorem test_owSelect : (after 0x2 withA).map (fun t => (t.hist.length, t.hist.take 8, t.hist.drop 64)) =
    some (72, [.w true, .w false, .w true, .w false, .w true, .w false, .w true, .w false],
      [.w false, .w false, .w true, .w true, .w false, .w true, .w false, .w false]) := by decide +kernel
/-- R142's example. -/
theorem test_owWrite_hold : (after 0x14403 State.reset).map (fun t => (statusWord t, t.hist)) =
    some (0x00000010#32, [.w false, .w false, .w true, .w false, .w false, .w false, .w true, .w false, .spuOn]) := by
  decide +kernel
/-- 2.3: `OW_WRITE 0xBE` from SPU = 1. -/
theorem test_owWrite_releases : (after 0xBE03 withHold).map (fun t => (statusWord t, t.hist)) =
    some (0#32, [.spuOff, .w false, .w true, .w true, .w true, .w true, .w true, .w false, .w true]) := by
  decide +kernel
/-- R143's example. -/
theorem test_owRead : (after 0x204 { State.reset with busAnswers := [true, false, true] ++ List.replicate 13 false }).map
    (fun t => (regValue t (.buf 0), t.hist.length)) = some (0x00000005#32, 16) := by decide +kernel
/-- 2.3: one byte read, the rest of BUF unchanged. -/
theorem test_owRead_keeps_the_rest : (after 0x104 { State.reset with
    buf := countingBuf, busAnswers := List.replicate 8 false }).map
    (fun t => (regValue t (.buf 0), regValue t (.buf 3))) = some (0x04030200#32, 0x100F0E0D#32) := by decide +kernel
/-- 2.4: the first search on the bus [A]. -/
theorem test_srchNext_finds_A : (after 0x10 onBusA).map
    (fun t => (t.rom, searchStateWord t, statusWord t, t.hist.length)) =
    some (idA, 0x00000100#32, 0x00000006#32, 201) := by decide +kernel
/-- 2.4: after the last device no bus event and `None`. -/
theorem test_srchNext_after_last : (after 0x10 { State.reset with lastDevice := true, presence := true, found := true }).map
    (fun t => (searchStateWord t, statusWord t, t.hist)) = some (0#32, 0x00000002#32, []) := by decide +kernel
/-- 42_search.md R167's example. -/
theorem test_srchReset : (after 0x11 { State.reset with lastDiscrepancy := 4, found := true }).map
    (fun t => (searchStateWord t, statusWord t)) = some (0#32, 0#32) := by decide +kernel
/-- 40_crc.md R116's example. -/
theorem test_crc_rom : (after 0x20720 withA).map (fun t => (t.crcResult, statusWord t)) =
    some (0x2C#8, 0x00000008#32) := by decide +kernel
/-- 2.2: len = size has no check byte. -/
theorem test_crc_buf_whole : (after 0x1020 { State.reset with buf := countingBuf, crcMatch := true }).map
    (fun t => (t.crcResult, t.crcMatch)) = some (0x80#8, false) := by decide +kernel
/-- 2.5: from IDLE. -/
theorem test_ntpStart : (after 0x30 { State.reset with ntpSeconds := 5#32 }).map
    (fun t => (statusWord t, t.ntpSeconds)) = some (0x00000100#32, 0#32) := by decide +kernel
/-- 2.6: an illegal word. -/
theorem test_illegal_word : (after 0x20920 State.reset).map (fun t => (errorWord t, statusWord t)) =
    some (0x00000003#32, 0#32) := by decide +kernel

/-! ### Host accesses, errors, the NTP unit, CRC values -/

/-- 2.7: `wr CMD, 0` after a BAD_ACCESS sets MORE. -/
theorem test_error_more : errorWord (writeOffset 0x00 .w32 0#32 (writeOffset 0x40 .w8 0#32 State.reset)) =
    0x00000101#32 := by decide +kernel
/-- 2.7: a misaligned write of CMD while BUSY = 1. -/
theorem test_error_order : errorWord (writeOffset 0x01 .w32 1#32 (accept .owReset State.reset)) = 1#32 := by decide +kernel
/-- 2.7: a write of ROM0 while BUSY = 1. -/
theorem test_busy_write : (fun t => (errorWord t, regValue t (.rom 0)))
    (writeOffset 0x10 .w32 0x11111111#32 (accept .owSelect State.reset)) = (2#32, 0#32) := by decide +kernel
/-- 20_memory.md R64's example. -/
theorem test_buf_packing : (writeOffset 0x40 .w32 0x04030201#32 State.reset).buf.toList.take 5 =
    [0x01#8, 0x02#8, 0x03#8, 0x04#8, 0x00#8] := by decide +kernel
/-- 43_ntp.md R190. -/
theorem test_tx_words : [0xC0, 0xC4, 0xCC, 0xEC].map (fun off => (readOffset off .w32 State.reset).1) =
    [0xEC0600E3#32, 0#32, 0x34314E31#32, 0#32] := by decide +kernel
/-- 95_test_vectors.md P5: 2024-01-01 at the last instant of the window, a length with high bits. -/
theorem test_delivery : (fun t => (t.ntpSeconds, statusWord t, t.ntpRxLen))
    (writeOffset 0x30 .w32 0x12340030#32 (writeOffset 0xA8 .w32 0x007F3CE9#32 (windowAt 1499#16))) =
    (0x65920080#32, 0x00000200#32, 48#16) := by decide +kernel
/-- 2.5: a datagram of 47 bytes. -/
theorem test_short_delivery : (fun t => (t.ntpState, t.ntpRxLen)) (writeOffset 0x30 .w32 47#32 (windowAt 3#16)) =
    (.awaiting, 47#16) := by decide +kernel
/-- 2.5: the tick that ends the window. -/
theorem test_timeout_tick : (fun t => (statusWord t, t.ntpElapsed)) (ntpTimerStep (windowAt 1499#16)) =
    (0x00000300#32, 1500#16) := by decide +kernel
/-- 2.1. -/
theorem test_crc_vectors : [crc8 [0x01#8], crc8 [0x80#8], crc8 (List.replicate 7 0xFF#8),
    crc8 [0x31#8, 0x32#8, 0x33#8, 0x34#8, 0x35#8, 0x36#8, 0x37#8, 0x38#8, 0x39#8],
    crc8 [0x02#8, 0x1C#8, 0xB8#8, 0x01#8, 0#8, 0#8, 0#8]] = [0x5E#8, 0x8C#8, 0x14#8, 0xA1#8, 0xA2#8] := by decide +kernel
/-- 40_crc.md R111: 0x8C is 0x31 with its bits reversed. -/
theorem test_poly : Config.crcPolyReflected = (0x31#8).reverse := by decide +kernel
/-- 10_state.md R47: a read of BUF while OW_READ runs is a free value. -/
theorem test_free_read : (readOffset 0x40 .w32 (accept (.owRead 9) State.reset)).1 = Config.freeReadValue 0 := rfl

/-- 43_ntp.md R195: a datagram of 5 bytes is handed over in two words and its length, RX[5..] as it was. -/
theorem test_short_hand_over : (fun rx => ((HostProgram.handOver rx [1#8, 2#8, 3#8, 4#8, 5#8]).length,
    (HostProgram.rxWith rx [1#8, 2#8, 3#8, 4#8, 5#8]).toList.take 8)) (Vector.replicate 48 0xAA#8) =
    (3, [1#8, 2#8, 3#8, 4#8, 5#8, 0xAA#8, 0xAA#8, 0xAA#8]) := by decide +kernel
/-- 70_reset_and_hazards.md R273: without an exchange of its own a program ends also in AWAITING. -/
theorem test_run_end_in_another_window :
    ((HostProgram.endState [] 1 (windowAt 9#16)).map fun t => t.ntpState) = some .awaiting := by decide +kernel

/-! ### Hypotheses met: a witness for every statement that has hypotheses -/

/-- A block with a command running, for the statements about BUSY = 1. -/
def running (i : Instr) : State := accept i State.reset

theorem witness_DecodeOfEncodeIsIdentity :
    (Instr.owRead 1).wf = true ∧ (Instr.owRead 16).wf = true ∧ (Instr.crc .buf 16).wf = true ∧
      (Instr.crc .rom 8).wf = true ∧ (Instr.crc .rom 0).wf = true := by decide +kernel
theorem witness_EncodeGivesTheAssemblerWords :
    (16 ≤ 16 ∧ encode (.owRead 16) = 0x00001004#32) ∧ (8 ≤ 8 ∧ encode (.crc .rom 8) = 0x00020820#32) := by decide
theorem witness_DecodedWordIsTheEncodedWord : decode 0x00001004#32 = some (.owRead 16) := by decide +kernel
theorem witness_CommandIssueOutcomes :
    (running .owSelect).busy = true ∧ State.reset.busy = false ∧ decode 0#32 = none ∧
      decode 0x00020820#32 = some (.crc .rom 8) := by decide +kernel
theorem witness_IllegalWordOnlyRaisesAnError : State.reset.busy = false ∧ decode 0xFFFFFFFF#32 = none := by decide +kernel
theorem witness_BadAccessIsRefused :
    (0x06 % 4 ≠ 0 ∨ AccessWidth.w32 ≠ .w32) ∧ (0x04 % 4 ≠ 0 ∨ AccessWidth.w16 ≠ .w32) := by decide +kernel
theorem witness_BusyRefusesCommandRomAndBufWrites : (running .owSelect).busy = true ∧ (0x4C = 0x00 ∨ 0x4C = 0x10 ∨
    0x4C = 0x14 ∨ 0x4C = 0x40 ∨ 0x4C = 0x44 ∨ 0x4C = 0x48 ∨ 0x4C = 0x4C) := by decide +kernel
/-- One input for each clause of OneErrorPerAccessInOrder. -/
theorem witness_OneErrorPerAccessInOrder :
    (0x01 % 4 ≠ 0) ∧
    (¬ (0x40 % 4 ≠ 0 ∨ AccessWidth.w32 ≠ .w32) ∧ (running .owSelect).busy = true ∧ (0x40 ≤ 0x40 ∧ 0x40 ≤ 0x4C)) ∧
    (State.reset.busy = false ∧ decode 0#32 = none) ∧
    (0x80 ≠ 0x08 ∧ ¬ (0x80 = 0x00 ∨ 0x80 = 0x10 ∨ 0x80 = 0x14 ∨ (0x40 ≤ 0x80 ∧ 0x80 ≤ 0x4C))) := by decide +kernel
theorem witness_ReservedAndReadOnlyIgnoreWrites :
    (0x34 % 4 = 0 ∧ 0xFC % 4 = 0 ∧ 0xFC ≤ 0xFC) ∧ (0x18 % 4 = 0 ∧ 0x2C % 4 = 0 ∧ 0xEC % 4 = 0 ∧ 0xEC ≤ 0xEC) := by
  decide +kernel
theorem witness_RegisterMapIsExact : 0xFC % 4 = 0 ∧ 0xFC < 256 ∧ regAt 0xFC = none ∧ regAt 0xEC = some (.ntpTx 11) := by
  decide +kernel
theorem witness_ArrayWriteReadsBack : State.reset.busy = false ∧ State.reset.seq = .idle := by decide +kernel
theorem witness_ReadsHaveNoSideEffect : 0xFC % 4 = 0 := by decide +kernel
/-- A state in which each clause's hypothesis holds, LAST_DISCREPANCY and the indices at their largest. -/
theorem witness_RegistersReadTheirFields :
    ({ State.reset with lastDiscrepancy := 64 }.lastDiscrepancy ≤ 64 ∧ 11 < 12 ∧ 1 < 2 ∧ 3 < 4) ∧
      (∀ m, (running (.owRead 16)).seq ≠ .running .srchNext m) ∧
      ∀ n m, (running .srchNext).seq ≠ .running (.owRead n) m :=
  ⟨by decide, fun _ => nofun, fun _ _ => nofun⟩
/-- One input for each clause of ReadsOfRunningTargetsAreFree. -/
theorem witness_ReadsOfRunningTargetsAreFree :
    (running (.owRead 9)).seq = .running (.owRead 9) .start ∧ (running .srchNext).seq = .running .srchNext .start ∧
    ((∀ n k b, (running (.crc .buf 9)).seq = .running (.owRead n) k → Reg.buf 0 ≠ .buf b) ∧
      ∀ k, (running (.crc .buf 9)).seq = .running .srchNext k →
        (∀ b, Reg.buf 0 ≠ .rom b ∧ Reg.buf 0 ≠ .srom b) ∧ Reg.buf 0 ≠ .searchState) ∧
    Reg.buf 0 ≠ .status := by
  refine ⟨rfl, rfl, ⟨fun n k b h => ?_, fun k h => ?_⟩, by decide +kernel⟩ <;> exact nomatch h
theorem witness_CrcCommandComputesAndChecks : withA.inReset = false ∧ withA.busy = false ∧
    (running .owReset).inReset = false ∧ (running .owReset).busy = true ∧ 16 ≤ 16 ∧ 8 ≤ 8 := by decide +kernel
theorem witness_CrcIsLinear : [0x03#8].length = [0x04#8].length := by decide +kernel
theorem witness_CrcResidueIsZero : byteAt idA 7 = crc8 (idA.toList.take 7) ∧
    byteAt (Vector.replicate 16 0#8) 8 = crc8 ((Vector.replicate 16 0#8).toList.take 8) := by decide +kernel
theorem witness_CrcDetectsEverySingleBitFlip : 6 < (idA.toList.take 7).length ∧ 7 < 8 := by decide +kernel
/-- For OwResetSamplesPresence, OwSelectWritesMatchRomAndTheId, OwWriteSendsTheByteAndTakesTheHold,
OwReadStoresTheAnswers, SrchNextFollowsItsPseudocode, SrchResetMakesTheSearchFresh and NtpStartOpensTheWindow: a ready
state, one with BUSY = 1, and the ends of OW_READ's range. -/
theorem witness_command_statements : withHold.inReset = false ∧ withHold.busy = false ∧
    (running .owSelect).inReset = false ∧ (running .owSelect).busy = true ∧ 1 ≤ 16 ∧ 16 ≤ 16 := by decide +kernel
theorem witness_EachBusMicroOperationIsOneEvent :
    (running .srchNext).inReset = false ∧ (running .srchNext).seq = .running .srchNext .start ∧
      microOk .srchNext .start = true ∧ (running .srchNext).lastDevice = false ∧
      { running .srchNext with lastDevice := true }.lastDevice = true := by decide +kernel
theorem witness_HistoryDeterminesLineAndPresence :
    (∀ level, Turn.sequencer ≠ .resetPin level) ∧
      ∃ t, turnStep .sequencer { withHold with busy := true, seq := .running .owReset .start } = .next t :=
  ⟨fun _ => nofun, _, rfl⟩
theorem witness_OnlyBusDrivingCommandsChangeTheLine :
    (∃ t, exec .srchReset withHold = .next t) ∧ (∃ t, exec .ntpStart withHold = .next t) ∧
      (∃ t, exec (.crc .rom 8) withHold = .next t) ∧
      { withHold with lastDevice := true }.lastDevice = true ∧
      ∃ t, exec .srchNext { withHold with lastDevice := true } = .next t :=
  ⟨⟨_, rfl⟩, ⟨_, rfl⟩, ⟨_, rfl⟩, rfl, _, rfl⟩
/-- For SrchNextEndsWithAddressOrNone and ExecIsAcceptanceAndSequencerSteps. -/
theorem witness_Ready : Ready State.reset ∧ State.reset.inReset = false ∧ State.reset.busy = false ∧
    State.reset.lastDevice = false := ⟨⟨rfl, rfl⟩, rfl, rfl, rfl⟩
theorem witness_SearchStateIsOwnedByTheSearch :
    Instr.owReset ≠ .srchNext ∧ Instr.owReset ≠ .srchReset ∧ (running .owReset).seq = .running .owReset .start ∧
      (outcomeState (exec .owReset { State.reset with busAnswers := [true] })).isSome = true := by decide +kernel
theorem answersAs_new_events {ds : List ReferenceBus.RomId} {s t : State} {events : List BusEvent} (hs : s.hist = [])
    (ht : t.hist = events) (h : ReferenceBus.answersAs ds events = true) :
    ReferenceBus.answersAs ds (t.hist.drop s.hist.length) = true := by rw [hs, ht]; exact h
theorem exec_srchNext_of_ready (s : State) (h : Ready s) : exec .srchNext s = .next (callSrchNext s) := by
  unfold callSrchNext
  simp [exec, execSrchNext, issueAndRun, h.1, h.2, outcomeState]
theorem test_events_of_a_search : (callSrchNext onBusA).hist = eventsOf idA [] := by decide +kernel
theorem test_answers_of_a_search : ReferenceBus.answersAs [idA] (eventsOf idA []) = true := by decide +kernel
/-- 95_test_vectors.md 2.4: on [A, D] the pass gives D, then A. -/
theorem test_events_of_a_pass : (callsSrchNext 2 onBusAD).hist = eventsOf idD [48] ++ eventsOf idA [48] := by
  decide +kernel
theorem test_answers_of_a_pass :
    ReferenceBus.answersAs [idA, idD] (eventsOf idD [48] ++ eventsOf idA [48]) = true := by decide +kernel
theorem witness_SearchOnReferenceBusFindsADevice :
    [idA] ≠ [] ∧ (∀ d ∈ [idA], byteAt d 0 ≠ 0x00#8) ∧ Ready onBusA ∧ onBusA.lastDevice = false ∧
      exec .srchNext onBusA = .next (callSrchNext onBusA) ∧
      ReferenceBus.answersAs [idA] ((callSrchNext onBusA).hist.drop onBusA.hist.length) = true :=
  ⟨by decide, List.forall_mem_singleton.2 (by decide), ⟨rfl, rfl⟩, rfl, exec_srchNext_of_ready onBusA ⟨rfl, rfl⟩,
    answersAs_new_events (s := onBusA) (t := callSrchNext onBusA) (events := eventsOf idA []) rfl
      test_events_of_a_search test_answers_of_a_search⟩
theorem witness_SearchPassGivesEachDeviceOnce :
    [idA, idD] ≠ [] ∧ [idA, idD].Nodup ∧ (∀ d ∈ [idA, idD], byteAt d 0 ≠ 0x00#8) ∧ Ready onBusAD ∧
      freshSearch onBusAD = true ∧
      ReferenceBus.answersAs [idA, idD]
        ((callsSrchNext [idA, idD].length onBusAD).hist.drop onBusAD.hist.length) = true :=
  ⟨by decide, by decide +kernel,
    List.forall_mem_cons.2 ⟨by decide, List.forall_mem_singleton.2 (by decide)⟩, ⟨rfl, rfl⟩, by decide +kernel,
    answersAs_new_events (s := onBusAD) (t := callsSrchNext 2 onBusAD)
      (events := eventsOf idD [48] ++ eventsOf idA [48]) rfl test_events_of_a_pass test_answers_of_a_pass⟩
/-- With `k = 0`, the last `k` the bound admits for two devices. -/
theorem witness_SearchPassIsInIdOrder :
    [idA, idD] ≠ [] ∧ [idA, idD].Nodup ∧ (∀ d ∈ [idA, idD], byteAt d 0 ≠ 0x00#8) ∧ Ready onBusAD ∧
      freshSearch onBusAD = true ∧
      ReferenceBus.answersAs [idA, idD]
        ((callsSrchNext [idA, idD].length onBusAD).hist.drop onBusAD.hist.length) = true ∧
      0 + 1 < [idA, idD].length :=
  have w := witness_SearchPassGivesEachDeviceOnce
  ⟨w.1, w.2.1, w.2.2.1, w.2.2.2.1, w.2.2.2.2.1, w.2.2.2.2.2, by decide⟩
theorem witness_RequestFrameIsConstant : 0xEC % 4 = 0 ∧ (0xD0 ≤ 0xEC ∧ 0xEC ≤ 0xEC) := by decide +kernel
theorem witness_WindowEndsAtTheTick1500 : (windowAt 0#16).inReset = false ∧ (windowAt 0#16).ntpState = .awaiting ∧
    (windowAt 0#16).ntpElapsed = 0#16 ∧ State.reset.ntpState ≠ .awaiting ∧ 1499 < 1500 ∧ 1500 ≤ 1500 := by decide +kernel
theorem witness_DeliveryIsParsedOnlyInTheWindow :
    (windowAt 9#16).ntpState = .awaiting ∧ 48 ≤ ((48#32).extractLsb' 0 16).toNat ∧
      ((47#32).extractLsb' 0 16).toNat < 48 := by decide +kernel
theorem witness_UnixSecondsAreExactOrWrap :
    2208988800 ≤ (2208988800#32).toNat ∧ (2208988799#32).toNat < 2208988800 := by decide +kernel
/-- The tick that ends the window is a step that moves NTP_STATE. -/
theorem witness_NtpStateMovesOnlyAsListed :
    ∃ t, step { windowAt 1499#16 with schedule := [.ntpTimer] } = .next t ∧
      t.ntpState ≠ (windowAt 1499#16).ntpState := ⟨_, rfl, by decide +kernel⟩
theorem witness_HostAccessInResetIsStuck : { State.reset with inReset := true }.inReset = true ∧ 255 < 256 := by decide +kernel
theorem witness_StepRunsTheDecodedCommand :
    Ready (State.reset.withFetchWord 32 0x11) ∧ decode 0x11#32 = some .srchReset ∧
      (State.reset.withFetchWord 32 0x11).program = .runCommand 0x11#32 :: [] ∧
      (State.reset.withFetchWord 32 0x11).schedule = .host :: [] := ⟨⟨rfl, rfl⟩, by decide +kernel, rfl, rfl⟩
/-- A state with each of the four statements next, the offsets at the end of the window. -/
theorem witness_StepRunsTheHostAccess :
    255 < 256 ∧ State.reset.inReset = false ∧
      { State.reset with program := [.wr (Config.pBase + 255) .w8 5#32], schedule := [.host] }.program =
        .wr (Config.pBase + 255) .w8 5#32 :: [] ∧
      { State.reset with program := [.rd (Config.pBase + 252) .w32], schedule := [.host] }.program =
        .rd (Config.pBase + 252) .w32 :: [] ∧
      { running .owSelect with program := [.waitIdle], schedule := [.host] }.program = .waitIdle :: [] ∧
      { windowAt 9#16 with program := [.waitNtp], schedule := [.host] }.schedule = .host :: [] :=
  ⟨by decide, rfl, rfl, rfl, rfl, rfl⟩
theorem witness_HandOverStoresTheDatagram :
    State.reset.inReset = false ∧ 47 < 48 ∧ ¬ 5 < [0x24#8, 0x02#8, 0x03#8, 0xE9#8, 0x00#8].length := by decide
/-- The program that starts an exchange and gets no reply: NTP_START, WAIT_IDLE, 1500 ticks, WAIT_NTP. -/
theorem witness_RunEndsWithTheBlockIdle :
    (HostProgram.endState [.runCommand 0x30#32] 1503 State.reset).isSome = true ∧
      HostProgram.startsExchange { State.reset with program := [.runCommand 0x30#32] ++ [.waitIdle] } = true := by
  decide +kernel
theorem witness_StepKeepsBusyExactlyWhileRunning :
    ((running .ntpStart).busy = true ↔ (running .ntpStart).seq ≠ .idle) ∧
      ∃ t, step (running .ntpStart) = .next t := ⟨by decide +kernel, _, rfl⟩
theorem witness_StepKeepsSpuExactlyTheLine :
    (withHold.spu = true ↔ withHold.line = .spu) ∧
      ∃ t, step { withHold with busy := true, seq := .running .owReset .start } = .next t :=
  ⟨by decide +kernel, _, rfl⟩
/-- A state with a command running has the invariant, and takes a step. -/
theorem witness_StepKeepsTheInvariant :
    (running .ntpStart).Inv ∧ ∃ t, step (running .ntpStart) = .next t := by
  refine ⟨⟨by decide +kernel, by decide +kernel, ?_, ?_, ?_, by decide +kernel, by decide +kernel,
    by decide +kernel, Nat.succ_pos _, ?_, ?_⟩, _, rfl⟩
  · intro i k h; cases h; decide
  · intro i k h hk; cases h; exact absurd rfl hk
  · intro k h; exact nomatch h
  · exact ⟨rfl, rfl, rfl⟩
  · intro h; exact nomatch h
theorem witness_RunCommandIsAnInterleaving : (Instr.owRead 16).wf = true ∧ Ready withHold := ⟨by decide, rfl, rfl⟩
theorem witness_EveryCommandCompletesWithinItsBound : (Instr.owRead 16).wf = true ∧ State.reset.inReset = false := by
  decide +kernel

end Sys2Proof.Tests
end

section
/-! The agents' schedule is data no Sequencer step looks at, a command's word decodes to the command, and so a command
run as one step is the host's write of its word to CMD and Sequencer turns (20_memory.md R66, R74; log entry 3). -/

namespace Sys2Proof.Machine

/-! ### The fields of a command word (30_encoding.md R90, R95) -/

section CommandWord

variable (op arg : Byte) (spu src : Bool)

@[simp] theorem opField_commandWord : opField (commandWord op arg spu src) = op := by
  simp only [opField, commandWord, BitVec.extractLsb'_append_eq_right]

@[simp] theorem argField_commandWord : argField (commandWord op arg spu src) = arg := by
  ext i hi
  simp only [argField, commandWord, BitVec.getElem_extractLsb', BitVec.getLsbD_append]
  simp [hi]

@[simp] theorem spuField_commandWord : spuField (commandWord op arg spu src) = spu := by
  simp only [spuField, commandWord, BitVec.getLsbD_append]
  simp

@[simp] theorem srcField_commandWord : srcField (commandWord op arg spu src) = src := by
  simp only [srcField, commandWord, BitVec.getLsbD_append]
  simp

@[simp] theorem rsvField_commandWord : rsvField (commandWord op arg spu src) = 0#14 := by
  ext i hi
  simp only [rsvField, commandWord, BitVec.getElem_extractLsb', BitVec.getLsbD_append]
  simp [show ¬ 18 + i < 8 by omega, show ¬ 18 + i - 8 < 8 by omega, show 18 + i - 8 - 8 ≠ 0 by omega,
    show 18 + i - 8 - 8 - 1 ≠ 0 by omega]

end CommandWord

@[simp] theorem crcSourceOf_bit (src : CrcSource) : crcSourceOf src.bit = src := by cases src <;> rfl

theorem crcSource_size_le (src : CrcSource) : src.size ≤ 16 := by cases src <;> decide

/-- The word of a well-formed command decodes to the command (R95). -/
theorem decode_encode {i : Instr} (h : i.wf = true) : decode (encode i) = some i := by
  cases i with
  | owRead n =>
    have hn : 1 ≤ n ∧ n ≤ 16 := by simpa [Instr.wf] using h
    have hmod : n % 256 = n := Nat.mod_eq_of_lt (by omega)
    simp [decode, decodeWord, encode, decodeOwRead, hmod, hn]
  | crc src len =>
    have hlen : len ≤ src.size := by simpa [Instr.wf] using h
    have hmod : len % 256 = len := Nat.mod_eq_of_lt (by have := crcSource_size_le src; omega)
    simp [decode, decodeWord, encode, decodeCrc, hmod, hlen]
  | owWrite b spu => simp [decode, decodeWord, encode, decodeOwWrite]
  | _ => simp [decode, decodeWord, encode, decodePlain]

/-! ### No Sequencer step looks at the schedule -/

/-- `s` with the agents' turns `turns` to come. -/
def State.withSchedule (turns : List Turn) (s : State) : State := { s with schedule := turns }

/-- `f` neither looks at the schedule nor changes it. -/
def IgnoresSchedule (f : State → State) : Prop :=
  ∀ turns s, f (s.withSchedule turns) = (f s).withSchedule turns

theorem afterRelease_ignoresSchedule {first : State → State} (h : IgnoresSchedule first) :
    IgnoresSchedule (afterRelease first) := by
  intro turns s
  simp only [afterRelease, h turns s, apply_ite (State.withSchedule turns)]
  rfl

theorem microOwReset_ignoresSchedule (k : MicroState) : IgnoresSchedule (microOwReset k) := by
  refine afterRelease_ignoresSchedule fun turns s => ?_
  simp only [owResetPulse, busReset_eq]
  rfl

theorem owSelectSlot_ignoresSchedule (j : Nat) : IgnoresSchedule (owSelectSlot j) := by
  intro turns s
  simp only [owSelectSlot, apply_ite (State.withSchedule turns)]
  rfl

theorem microOwSelect_ignoresSchedule (k : MicroState) : IgnoresSchedule (microOwSelect k) := by
  cases k with
  | start => exact afterRelease_ignoresSchedule (owSelectSlot_ignoresSchedule 0)
  | writeSlot j => exact owSelectSlot_ignoresSchedule j
  | _ => exact owSelectSlot_ignoresSchedule 0

theorem owWriteSlot_ignoresSchedule (b : Byte) (spu : Bool) (j : Nat) : IgnoresSchedule (owWriteSlot b spu j) := by
  intro turns s
  simp only [owWriteSlot, apply_ite (State.withSchedule turns)]
  rfl

theorem microOwWrite_ignoresSchedule (b : Byte) (spu : Bool) (k : MicroState) :
    IgnoresSchedule (microOwWrite b spu k) := by
  cases k with
  | start => exact afterRelease_ignoresSchedule (owWriteSlot_ignoresSchedule b spu 0)
  | writeSlot j => exact owWriteSlot_ignoresSchedule b spu j
  | takeSpu => exact fun _ _ => rfl
  | _ => exact owWriteSlot_ignoresSchedule b spu 0

theorem owReadSlot_ignoresSchedule (n j : Nat) (acc : Byte) : IgnoresSchedule (owReadSlot n j acc) := by
  intro turns s
  simp only [owReadSlot, busReadBit_eq, apply_ite (State.withSchedule turns)]
  rfl

theorem microOwRead_ignoresSchedule (n : Nat) (k : MicroState) : IgnoresSchedule (microOwRead n k) := by
  cases k with
  | start => exact afterRelease_ignoresSchedule (owReadSlot_ignoresSchedule n 0 0#8)
  | readSlot j acc => exact owReadSlot_ignoresSchedule n j acc
  | _ => exact owReadSlot_ignoresSchedule n 0 0#8

theorem finishSearch_ignoresSchedule (ok : Bool) : IgnoresSchedule (finishSearch ok) := by
  intro turns s
  simp only [finishSearch, apply_ite (State.withSchedule turns)]
  rfl

theorem searchPulse_ignoresSchedule : IgnoresSchedule searchPulse := by
  intro turns s
  simp only [searchPulse, busReset_eq, apply_ite (State.withSchedule turns),
    ← finishSearch_ignoresSchedule false turns]
  rfl

theorem searchStart_ignoresSchedule : IgnoresSchedule searchStart := by
  intro turns s
  simp only [searchStart, finishSearch_ignoresSchedule false turns s,
    afterRelease_ignoresSchedule searchPulse_ignoresSchedule turns s, apply_ite (State.withSchedule turns)]
  rfl

theorem searchByteSlot_ignoresSchedule (j : Nat) : IgnoresSchedule (searchByteSlot j) := by
  intro turns s
  simp only [searchByteSlot, apply_ite (State.withSchedule turns)]
  rfl

theorem searchReadFirst_ignoresSchedule (n lastZero : Nat) : IgnoresSchedule (searchReadFirst n lastZero) := by
  intro turns s
  simp only [searchReadFirst, busReadBit_eq]
  rfl

theorem searchReadSecond_ignoresSchedule (n lastZero : Nat) (a : Bool) :
    IgnoresSchedule (searchReadSecond n lastZero a) := by
  intro turns s
  simp only [searchReadSecond, busReadBit_eq, apply_ite (State.withSchedule turns),
    ← finishSearch_ignoresSchedule false turns]
  rfl

theorem searchWriteSlot_ignoresSchedule (n lastZero : Nat) (d : Bool) :
    IgnoresSchedule (searchWriteSlot n lastZero d) := by
  intro turns s
  simp only [searchWriteSlot, apply_ite (State.withSchedule turns), ← finishSearch_ignoresSchedule true turns]
  rfl

theorem microSrchNext_ignoresSchedule (k : MicroState) : IgnoresSchedule (microSrchNext k) := by
  cases k with
  | searchByte j => exact searchByteSlot_ignoresSchedule j
  | searchFirst n lastZero => exact searchReadFirst_ignoresSchedule n lastZero
  | searchSecond n lastZero a => exact searchReadSecond_ignoresSchedule n lastZero a
  | searchWrite n lastZero d => exact searchWriteSlot_ignoresSchedule n lastZero d
  | _ => exact searchStart_ignoresSchedule

theorem microOf_ignoresSchedule (i : Instr) (k : MicroState) : IgnoresSchedule (microOf i k) := by
  cases i with
  | owReset => exact microOwReset_ignoresSchedule k
  | owSelect => exact microOwSelect_ignoresSchedule k
  | owWrite b spu => exact microOwWrite_ignoresSchedule b spu k
  | owRead n => exact microOwRead_ignoresSchedule n k
  | srchNext => exact microSrchNext_ignoresSchedule k
  | srchReset => exact fun _ _ => rfl
  | crc src len => cases src <;> exact fun _ _ => rfl
  | ntpStart => exact fun _ _ => rfl

theorem sequencerStep_ignoresSchedule : IgnoresSchedule sequencerStep := by
  intro turns s
  rcases sequencerStep_cases s with ⟨hr, h⟩ | ⟨-, hq, h⟩ | ⟨i, k, hr, hq, h⟩
  · rw [h]; simp [sequencerStep, State.withSchedule, hr]
  · rw [h]; exact sequencerStep_idle hq
  · rw [h, sequencerStep_running (s := s.withSchedule turns) hr hq]; exact microOf_ignoresSchedule i k turns s

/-! ### Sequencer turns in a row -/

theorem repeat_succ_apply {α : Type} (f : α → α) (n : Nat) (a : α) :
    Nat.repeat f (n + 1) a = Nat.repeat f n (f a) := by
  induction n with
  | zero => rfl
  | succ n ih => exact congrArg f ih

/-- `n` Sequencer turns in the schedule are `n` Sequencer steps. -/
theorem core_run_sequencerTurns (n : Nat) (turns : List Turn) (s : State) :
    Sys2Proof.core.run n (s.withSchedule (List.replicate n .sequencer ++ turns)) =
      .next (Nat.repeat sequencerStep n (s.withSchedule turns)) := by
  induction n generalizing s with
  | zero => rfl
  | succ n ih =>
    have hstep : step (s.withSchedule (List.replicate (n + 1) .sequencer ++ turns)) =
        .next ((sequencerStep s).withSchedule (List.replicate n .sequencer ++ turns)) :=
      congrArg _ (sequencerStep_ignoresSchedule (List.replicate n .sequencer ++ turns) s)
    rw [core_run_next n hstep, ih, ← sequencerStep_ignoresSchedule]
    exact congrArg Host.Outcome.next (repeat_succ_apply sequencerStep n _).symm

/-- Running a command's micro-operations is letting the Sequencer step; once the command is complete its steps do
nothing. -/
theorem runMicro_eq_repeat_sequencerStep (i : Instr) (n : Nat) {s : State} (hr : s.inReset = false)
    (hq : s.seq = .idle ∨ ∃ k, s.seq = .running i k) :
    runMicro (microOf i) n s = Nat.repeat sequencerStep n s := by
  induction n generalizing s with
  | zero => rfl
  | succ n ih =>
    rw [repeat_succ_apply]
    rcases hq with hq | ⟨k, hq⟩
    · rw [sequencerStep_idle hq, ← ih hr (.inl hq), runMicro_idle _ _ hq, runMicro_idle _ _ hq]
    · rw [runMicro_running _ _ hq, sequencerStep_running hr hq]
      refine ih ((microOf_sameOutside i k s).inReset.trans hr) ?_
      exact (microOf_seq i k s hq).imp And.left fun ⟨k', hk', _⟩ => ⟨k', hk'⟩

/-- `exec` of a command the block can take is acceptance and Sequencer steps. -/
theorem exec_eq_repeat_sequencerStep (i : Instr) {s : State} (h : Ready s) :
    exec i s = .next (Nat.repeat sequencerStep (maxSteps i) (accept i s)) := by
  obtain ⟨hr, hb⟩ := h
  rw [exec_eq, ← runMicro_eq_repeat_sequencerStep i (maxSteps i) (s := accept i s) hr (.inr ⟨.start, rfl⟩)]
  simp [issueAndRun, hr, hb]

/-! ### The two ways of running a command -/

section Command

variable {i : Instr} {s : State} (hwf : i.wf = true) (h : Ready s) (rest : List HostStmt) (turns : List Turn)
include hwf h

/-- The host's write of a command's word to CMD accepts the command (20_memory.md R66). -/
theorem step_command :
    step { s with program := HostProgram.command i :: rest, schedule := .host :: turns } =
      .next (accept i { s with program := rest, schedule := turns }) := by
  obtain ⟨hr, hb⟩ := h
  rw [step_hostTurn rfl]
  simp [hostStep, hostStmtStep, HostProgram.command, HostProgram.wr, hostWrite, offset_lt, hr, writeOffset_reg,
    writeReg, issue, hb, decode_encode hwf]

/-- A command's word run as one step is `exec` of the command. -/
theorem step_runCommand :
    step { s with program := .runCommand (encode i) :: rest, schedule := .host :: turns } =
      exec i { s with program := rest, schedule := turns } := by
  obtain ⟨hr, hb⟩ := h
  rw [step_hostTurn rfl]
  simp [hostStep, hostStmtStep, runCommandWord, hr, hb, decode_encode hwf]

end Command

/-- Settles O57: either way the command is accepted first, and the Sequencer's turns are the Sequencer steps that `exec`
takes. -/
theorem runCommandIsAnInterleaving : Obligations.RunCommandIsAnInterleaving := by
  unfold Obligations.RunCommandIsAnInterleaving
  intro i s rest turns hwf hready
  have hready' : Ready { s with program := rest, schedule := turns } := hready
  rw [step_runCommand hwf hready, exec_eq_repeat_sequencerStep i hready', Nat.add_comm,
    core_run_next _ (step_command hwf hready rest _)]
  exact core_run_sequencerTurns (maxSteps i) turns (accept i { s with program := rest })

end Sys2Proof.Machine
end

section
/-! What the agents' steps keep, said once: a property that host writes, micro-operations, ticks and changes of the
agents' own data keep is kept by every agent's turn, and one that the reset input keeps too by every step (00_scope.md
R7). It is shown from the host's single accesses, which are taken only while the reset input is released. -/

namespace Sys2Proof.Machine

/-- `P` is kept by each thing an agent can do to the block, the reset input aside. -/
structure KeptByAgents (P : State → Prop) : Prop where
  /-- A change of the agents' own data. -/
  agents : ∀ (s : State) (program : List HostStmt) (schedule : List Turn) (draws : Nat) (readLog : List Word),
    P s → P { s with program := program, schedule := schedule, draws := draws, readLog := readLog }
  /-- A host write. -/
  write : ∀ {v : Word} {s t : State}, s.inReset = false → WriteEffect v s t → P s → P t
  /-- A micro-operation of the running command. -/
  micro : ∀ {i : Instr} {k : MicroState} {s : State}, s.inReset = false → s.seq = .running i k → P s →
    P (microOf i k s)
  /-- A tick. -/
  tick : ∀ {s : State}, P s → P (ntpTimerStep s)

namespace KeptByAgents

variable {P : State → Prop} (h : KeptByAgents P) {s t : State}
include h

theorem raiseError_keeps (code : ErrorCode) (hr : s.inReset = false) (hp : P s) : P (raiseError code s) :=
  h.write (v := 0#32) hr (.error code) hp

theorem sequencerStep_keeps (hp : P s) : P (sequencerStep s) := by
  rcases sequencerStep_cases s with ⟨-, hs⟩ | ⟨-, -, hs⟩ | ⟨i, k, hr, hq, hs⟩
  · rwa [hs]
  · rwa [hs]
  · rw [hs]; exact h.micro hr hq hp

theorem repeat_sequencerStep_keeps (n : Nat) (hp : P s) : P (Nat.repeat sequencerStep n s) := by
  induction n with
  | zero => exact hp
  | succ n ih => exact h.sequencerStep_keeps ih

/-- Accepting a command and running it to its end is a write of CMD and Sequencer steps. -/
theorem exec_keeps {i : Instr} (hready : Ready s) (hwf : i.wf = true) (hs : exec i s = .next t) (hp : P s) : P t := by
  rw [exec_eq_repeat_sequencerStep i hready] at hs
  cases hs
  exact h.repeat_sequencerStep_keeps _ (h.write hready.1 (.accepted i hready.2 (decode_encode hwf)) hp)

theorem hostRead_keeps {addr : Nat} {width : AccessWidth} (hs : hostRead addr width s = .next t) (hp : P s) : P t := by
  unfold hostRead at hs
  split at hs
  case h_1 => cases hs; exact hp
  case h_2 off _ =>
    split at hs
    · cases hs
    next hr =>
      cases hs
      refine h.agents (readOffset off width s).2 _ _ _ _ ?_
      rcases readOffset_cases off width s with ⟨-, hread⟩ | ⟨-, hread⟩ | ⟨-, hread⟩ <;> rw [hread]
      · exact hp
      · exact h.agents s _ _ _ _ hp
      · exact h.raiseError_keeps _ (by simpa using hr) hp

theorem hostWrite_keeps {addr : Nat} {width : AccessWidth} {v : Word} (hs : hostWrite addr width v s = .next t)
    (hp : P s) : P t := by
  unfold hostWrite at hs
  split at hs
  case h_1 => cases hs; exact hp
  case h_2 off _ =>
    split at hs
    · cases hs
    next hr => cases hs; exact h.write (by simpa using hr) (writeOffset_effect off width v s) hp

theorem hostPoll_keeps {again : HostStmt} {finished : Bool} (hs : hostPoll again finished s = .next t) (hp : P s) :
    P t := by
  unfold hostPoll at hs
  split at hs
  · cases hs
  · cases hs; exact h.agents s _ _ _ _ hp

theorem runCommandWord_keeps {w : Word} (hs : runCommandWord w s = .next t) (hp : P s) : P t := by
  unfold runCommandWord at hs
  split at hs
  · cases hs
  next hr =>
    have hr : s.inReset = false := by simpa using hr
    split at hs
    · cases hs; exact h.raiseError_keeps _ hr hp
    next hb =>
      split at hs
      · cases hs; exact h.raiseError_keeps _ hr hp
      next i hd => exact h.exec_keeps ⟨hr, by simpa using hb⟩ (decode_wf hd) hs hp

theorem hostStmtStep_keeps {stmt : HostStmt} (hs : hostStmtStep stmt s = .next t) (hp : P s) : P t := by
  cases stmt with
  | rd addr width => exact h.hostRead_keeps hs hp
  | wr addr width v => exact h.hostWrite_keeps hs hp
  | waitIdle => exact h.hostPoll_keeps hs hp
  | waitNtp => exact h.hostPoll_keeps hs hp
  | runCommand w => exact h.runCommandWord_keeps hs hp

/-- Every agent's turn keeps `P`. -/
theorem turnStep_keeps {turn : Turn} (hturn : ∀ level, turn ≠ .resetPin level) (hs : turnStep turn s = .next t)
    (hp : P s) : P t := by
  cases turn with
  | host =>
    simp only [turnStep, hostStep] at hs
    split at hs
    · cases hs; exact hp
    · exact h.hostStmtStep_keeps hs (h.agents s _ _ _ _ hp)
  | sequencer => cases hs; exact h.sequencerStep_keeps hp
  | ntpTimer => cases hs; exact h.tick hp
  | resetPin level => exact absurd rfl (hturn level)

/-- Every step keeps `P`, if driving the reset input does too. -/
theorem step_keeps (hreset : ∀ level s, P s → P (resetPinStep level s)) (hs : step s = .next t) (hp : P s) :
    P t := by
  have hturn : ∀ {turn s}, turnStep turn s = .next t → P s → P t := fun {turn s} hs hp => by
    cases turn with
    | resetPin level => cases hs; exact hreset level s hp
    | _ => exact h.turnStep_keeps (by simp) hs hp
  unfold step at hs
  split at hs
  · exact hturn hs (h.agents s _ _ _ _ hp)
  · split at hs
    · exact hturn hs hp
    · cases hs; exact hp

end KeptByAgents

end Sys2Proof.Machine
end

section
/-! BUSY goes with the Sequencer's state (10_state.md R42), SPU with the line (R28), and the bus history's new events
give the line and PRESENCE (R25, R43): each is kept by what an agent can do, so by every turn and every step. -/

namespace Sys2Proof.Machine

/-! ### BUSY and the Sequencer -/

/-- BUSY is 1 exactly while the Sequencer is not `Idle` (10_state.md R42). -/
def BusyFitsSeq (s : State) : Prop := s.busy = true ↔ s.seq ≠ .idle

/-- A host write leaves BUSY and the Sequencer's state alone, or starts a command. -/
theorem WriteEffect.busy_seq {v : Word} {s t : State} (h : WriteEffect v s t) :
    (t.busy = s.busy ∧ t.seq = s.seq) ∨ ∃ i, t.busy = true ∧ t.seq = .running i .start := by
  cases h with
  | error code => exact .inl ⟨raiseError_busy code s, raiseError_seq code s⟩
  | accepted i => exact .inr ⟨i, rfl, rfl⟩
  | delivery =>
    rcases deliver_cases (v.extractLsb' 0 16) s with ⟨-, -, h⟩ | ⟨-, h⟩ <;> rw [h] <;> exact .inl ⟨rfl, rfl⟩
  | _ => exact .inl ⟨rfl, rfl⟩

theorem ntpTimerStep_busy_seq (s : State) : (ntpTimerStep s).busy = s.busy ∧ (ntpTimerStep s).seq = s.seq := by
  rcases ntpTimerStep_cases s with ⟨-, -, h⟩ | ⟨-, h⟩ <;> rw [h] <;> exact ⟨rfl, rfl⟩

theorem microOf_busyFitsSeq {i : Instr} {k : MicroState} {s : State} (hq : s.seq = .running i k)
    (h : BusyFitsSeq s) : BusyFitsSeq (microOf i k s) := by
  have hbusy : s.busy = true := h.mpr (by simp [hq])
  rcases microOf_seq i k s hq with ⟨hseq, hb⟩ | ⟨k', hseq, hb⟩ <;> simp [BusyFitsSeq, hseq, hb, hbusy]

theorem busyFitsSeq_keptByAgents : KeptByAgents BusyFitsSeq where
  agents _ _ _ _ _ h := h
  write {v s t} _ hw h := by
    rcases hw.busy_seq with ⟨hb, hs⟩ | ⟨i, hb, hs⟩
    · rwa [BusyFitsSeq, hb, hs]
    · simp [BusyFitsSeq, hb, hs]
  micro _ hq h := microOf_busyFitsSeq hq h
  tick {s} h := by
    obtain ⟨hb, hs⟩ := ntpTimerStep_busy_seq s
    rwa [BusyFitsSeq, hb, hs]

theorem resetPinStep_busyFitsSeq (level : Bool) (s : State) (h : BusyFitsSeq s) :
    BusyFitsSeq (resetPinStep level s) := by
  unfold resetPinStep
  split
  · simp [BusyFitsSeq, resetBlock, State.reset]
  · exact h

/-- Settles O51: a host write starts a command and raises BUSY together, a micro-operation completes a command and
clears BUSY together, and nothing else touches the two. -/
theorem stepKeepsBusyExactlyWhileRunning : Obligations.StepKeepsBusyExactlyWhileRunning := fun _ _ h hs =>
  busyFitsSeq_keptByAgents.step_keeps resetPinStep_busyFitsSeq hs h

/-! ### The line, SPU, PRESENCE and the history -/

/-- The bus history, the line, SPU and PRESENCE are the same in `s` and `t`. -/
structure SameBus (s t : State) : Prop where
  hist : t.hist = s.hist
  line : t.line = s.line
  spu : t.spu = s.spu
  presence : t.presence = s.presence

theorem raiseError_sameBus (code : ErrorCode) (s : State) : SameBus s (raiseError code s) := by
  rw [raiseError_eq]; exact ⟨rfl, rfl, rfl, rfl⟩

theorem deliver_sameBus (len : BitVec 16) (s : State) : SameBus s (deliver len s) := by
  rcases deliver_cases len s with ⟨-, -, h⟩ | ⟨-, h⟩ <;> rw [h] <;> exact ⟨rfl, rfl, rfl, rfl⟩

/-- No host write touches the bus (41_onewire.md R135). -/
theorem WriteEffect.sameBus {v : Word} {s t : State} (h : WriteEffect v s t) : SameBus s t := by
  cases h with
  | error code => exact raiseError_sameBus code s
  | delivery => exact deliver_sameBus _ s
  | _ => exact ⟨rfl, rfl, rfl, rfl⟩

/-- No tick touches the bus (41_onewire.md R135). -/
theorem ntpTimerStep_sameBus (s : State) : SameBus s (ntpTimerStep s) := by
  rcases ntpTimerStep_cases s with ⟨-, -, h⟩ | ⟨-, h⟩ <;> rw [h] <;> exact ⟨rfl, rfl, rfl, rfl⟩

/-- SPU is 1 exactly while the line is in `Spu` (10_state.md R28). -/
def SpuFitsLine (s : State) : Prop := s.spu = true ↔ s.line = .spu

theorem SameBus.spuFitsLine {s t : State} (h : SameBus s t) (hs : SpuFitsLine s) : SpuFitsLine t := by
  rwa [SpuFitsLine, h.spu, h.line]

/-- A micro-operation leaves the line and SPU alone, or takes the strong pull-up, or releases it. -/
theorem microOf_line_spu (i : Instr) (k : MicroState) (s : State) :
    ((microOf i k s).line = s.line ∧ (microOf i k s).spu = s.spu) ∨
      ((microOf i k s).line = .spu ∧ (microOf i k s).spu = true) ∨
      ((microOf i k s).line = .released ∧ (microOf i k s).spu = false) := by
  cases i <;>
    simp only [microOf, microOwReset, microOwSelect, microOwWrite, microOwRead, microSrchNext, microSrchReset,
      microCrc, microNtpStart, afterRelease, owResetPulse, owSelectSlot, owWriteSlot, owReadSlot, searchStart,
      searchPulse, searchByteSlot, searchReadFirst, searchReadSecond, searchWriteSlot, finishSearch, busReset_eq,
      busReadBit_eq] <;>
    (repeat' split) <;> simp [searchNone, searchFound, recordDiscrepancy]

theorem microOf_spuFitsLine (i : Instr) (k : MicroState) {s : State} (h : SpuFitsLine s) :
    SpuFitsLine (microOf i k s) := by
  rcases microOf_line_spu i k s with ⟨hl, hs⟩ | ⟨hl, hs⟩ | ⟨hl, hs⟩
  · rwa [SpuFitsLine, hl, hs]
  · simp [SpuFitsLine, hl, hs]
  · simp [SpuFitsLine, hl, hs]

theorem spuFitsLine_keptByAgents : KeptByAgents SpuFitsLine where
  agents _ _ _ _ _ h := h
  write _ hw h := hw.sameBus.spuFitsLine h
  micro _ _ h := microOf_spuFitsLine _ _ h
  tick {s} h := (ntpTimerStep_sameBus s).spuFitsLine h

theorem resetPinStep_spuFitsLine (level : Bool) (s : State) (h : SpuFitsLine s) :
    SpuFitsLine (resetPinStep level s) := by
  unfold resetPinStep
  split
  · simp [SpuFitsLine, resetBlock, State.reset]
  · exact h

/-- Settles O52: only a micro-operation that takes or releases the strong pull-up, and the reset input, touch the line
and SPU, and they set both. -/
theorem stepKeepsSpuExactlyTheLine : Obligations.StepKeepsSpuExactlyTheLine := fun _ _ h hs =>
  spuFitsLine_keptByAgents.step_keeps resetPinStep_spuFitsLine hs h

/-! ### What the history says -/

theorem lineAfter_append (l : LineState) (events events' : List BusEvent) :
    lineAfter l (events ++ events') = lineAfter (lineAfter l events) events' := List.foldl_append

theorem presenceAfter_append (p : Bool) (events events' : List BusEvent) :
    presenceAfter p (events ++ events') = presenceAfter (presenceAfter p events) events' := List.foldl_append

/-- The history of `t` extends that of `s`, and the new events give the line and PRESENCE of `t` from those of `s`
(10_state.md R25, R43, R45). -/
def HistoryLeads (s t : State) : Prop :=
  ∃ events, t.hist = s.hist ++ events ∧ t.line = lineAfter s.line events ∧
    t.presence = presenceAfter s.presence events

theorem HistoryLeads.refl (s : State) : HistoryLeads s s := ⟨[], (List.append_nil _).symm, rfl, rfl⟩

theorem SameBus.historyLeads {s t : State} (h : SameBus s t) : HistoryLeads s t :=
  ⟨[], by rw [h.hist, List.append_nil], h.line, h.presence⟩

theorem HistoryLeads.trans {s t u : State} (h : HistoryLeads s t) (h' : HistoryLeads t u) : HistoryLeads s u := by
  obtain ⟨events, hhist, hline, hpres⟩ := h
  obtain ⟨events', hhist', hline', hpres'⟩ := h'
  refine ⟨events ++ events', ?_, ?_, ?_⟩
  · rw [hhist', hhist, List.append_assoc]
  · rw [hline', hline, lineAfter_append]
  · rw [hpres', hpres, presenceAfter_append]

theorem historyLeads_keptByAgents (s : State) : KeptByAgents (HistoryLeads s) where
  agents _ _ _ _ _ h := h
  write _ hw h := h.trans hw.sameBus.historyLeads
  micro {i k t} _ _ h := h.trans (microOf_hist i k t)
  tick {t} h := h.trans (ntpTimerStep_sameBus t).historyLeads

/-- Settles O30: each micro-operation's events give the line and PRESENCE, no other agent touches the three, and the
events of a run of them are those of each in turn. -/
theorem historyDeterminesLineAndPresence : Obligations.HistoryDeterminesLineAndPresence := fun _ s _ hturn hs =>
  (historyLeads_keptByAgents s).turnStep_keeps hturn hs (.refl s)

end Sys2Proof.Machine
end

section
/-! The invariant of the machine (Safety's `State.Inv`): it holds after reset, and every step keeps it. The long part is
the Sequencer: each micro-operation leaves its command at a micro-operation state of the command's own, or completes it
(`InCommand`), and leaves the search state in range (`SearchInRange`). -/

namespace Sys2Proof.Machine

/-! ### The invariant after reset and under host writes, ticks and the reset input -/

/-- Settles O53: no command runs, the line is released, and every number is 0. -/
theorem resetHasTheInvariant : Obligations.ResetHasTheInvariant where
  busy_iff := by simp [State.reset]
  spu_iff := by simp [State.reset]
  running_ok _ _ h := nomatch h
  started_released _ _ h := nomatch h
  searching_open _ h := nomatch h
  discrepancy_le := Nat.zero_le 64
  lastDevice_zero _ := rfl
  more_needs_code _ := rfl
  tickDiv_lt := Nat.succ_pos _
  ntp_ok := ⟨rfl, rfl, rfl⟩
  reset_held h := nomatch h

theorem resetBlock_inv (s : State) : (resetBlock s).Inv :=
  { resetHasTheInvariant with reset_held := fun _ => rfl }

theorem microOk_start (i : Instr) : microOk i .start = true := by cases i <;> rfl

theorem ntpConsistent_iff_of_awaiting {s : State} (h : s.ntpState = .awaiting) :
    ntpConsistent s ↔ s.ntpElapsed.toNat < 1500 ∧ s.ntpRaw = 0#32 ∧ s.ntpSeconds = 0#32 := by
  simp [ntpConsistent, h]

namespace State.Inv

variable {s : State} (h : s.Inv)
include h

/-- The agents' own data is not in the invariant. -/
theorem agents_inv (program : List HostStmt) (schedule : List Turn) (draws : Nat) (readLog : List Word) :
    State.Inv { s with program := program, schedule := schedule, draws := draws, readLog := readLog } := by
  refine { h with reset_held := fun hr => ?_ }
  conv_lhs => rw [h.reset_held hr]
  rfl

theorem raiseError_inv (code : ErrorCode) (hr : s.inReset = false) : (raiseError code s).Inv := by
  rw [raiseError_eq]
  exact { h with
    more_needs_code := by
      by_cases hc : s.errCode = .none
      · simpa [hc] using fun _ => h.more_needs_code hc
      · simp [hc]
    reset_held := fun hr' => nomatch hr.symm.trans hr' }

theorem clearError_inv (hr : s.inReset = false) : (clearError s).Inv :=
  { h with
    more_needs_code := fun _ => rfl
    reset_held := fun hr' => nomatch hr.symm.trans hr' }

theorem accept_inv {i : Instr} (hwf : i.wf = true) (hr : s.inReset = false) : (accept i s).Inv :=
  { h with
    busy_iff := by simp
    running_ok := fun j k hq => by cases hq; exact ⟨hwf, microOk_start i⟩
    started_released := fun j k hq hk => by cases hq; exact absurd rfl hk
    searching_open := fun k hq hk => by cases hq; exact absurd rfl hk
    reset_held := fun hr' => nomatch hr.symm.trans hr' }

theorem deliver_inv (len : BitVec 16) (hr : s.inReset = false) : (deliver len s).Inv := by
  rcases deliver_cases len s with ⟨hn, -, hd⟩ | ⟨-, hd⟩ <;> rw [hd]
  · obtain ⟨helapsed, -, -⟩ := (ntpConsistent_iff_of_awaiting hn).mp h.ntp_ok
    exact { h with
      ntp_ok := ⟨helapsed, rfl⟩
      reset_held := fun hr' => nomatch hr.symm.trans hr' }
  · exact { h with reset_held := fun hr' => nomatch hr.symm.trans hr' }

theorem writeEffect_inv {v : Word} {t : State} (hr : s.inReset = false) (hw : WriteEffect v s t) : t.Inv := by
  cases hw with
  | ignored => exact h
  | error code => exact h.raiseError_inv code hr
  | cleared => exact h.clearError_inv hr
  | accepted i _ hd => exact h.accept_inv (decode_wf hd) hr
  | delivery => exact h.deliver_inv _ hr
  | _ => exact { h with reset_held := fun hr' => nomatch hr.symm.trans hr' }

/-- The tick that counts to 1500 ends the window, and no other does (43_ntp.md R196). -/
theorem ntpTimerStep_inv : (ntpTimerStep s).Inv := by
  rcases ntpTimerStep_cases s with ⟨hr, hn, hs⟩ | ⟨-, hs⟩ <;> rw [hs]
  · obtain ⟨helapsed, hraw, hseconds⟩ := (ntpConsistent_iff_of_awaiting hn).mp h.ntp_ok
    refine { h with ntp_ok := ?_, reset_held := fun hr' => nomatch hr.symm.trans hr' }
    by_cases hover : (s.ntpElapsed + 1#16).toNat = 1500 <;> simp only [ntpConsistent, hover, if_true, if_false]
    · exact ⟨trivial, hraw, hseconds⟩
    · refine ⟨?_, hraw, hseconds⟩
      bv_omega
  · exact h

theorem resetPinStep_inv (level : Bool) : (resetPinStep level s).Inv := by
  unfold resetPinStep
  split
  · exact resetBlock_inv s
  · exact { h with reset_held := fun hr => nomatch hr }

end State.Inv

/-! ### Where a micro-operation leaves its command -/

/-- The command `i` is complete, or it runs and is at its start, or it is past the prelude, at a micro-operation state
of its own, with the line released and a search open (10_state.md R42, 41_onewire.md R135, 42_search.md R166). -/
inductive InCommand (i : Instr) (t : State) : Prop where
  | completed : t.seq = .idle → t.busy = false → InCommand i t
  | atStart : t.seq = .running i .start → t.busy = true → InCommand i t
  | started (k : MicroState) : t.seq = .running i k → t.busy = true → microOk i k = true → t.line = .released →
      (i = .srchNext → t.lastDevice = false) → InCommand i t

theorem complete_inCommand (i : Instr) (s : State) : InCommand i (complete s) := .completed rfl rfl

theorem finishSearch_inCommand (ok : Bool) (s : State) : InCommand .srchNext (finishSearch ok s) := by
  unfold finishSearch; split <;> exact complete_inCommand _ _

/-- A running command is `i`, where `InCommand` says. -/
theorem InCommand.of_running {i j : Instr} {k : MicroState} {t : State} (h : InCommand i t)
    (hq : t.seq = .running j k) :
    j = i ∧ microOk i k = true ∧ (k ≠ .start → t.line = .released) ∧
      (k ≠ .start → i = .srchNext → t.lastDevice = false) := by
  cases h with
  | completed hidle => exact nomatch hidle.symm.trans hq
  | atStart hstart =>
    cases hstart.symm.trans hq
    exact ⟨rfl, microOk_start i, fun hk => absurd rfl hk, fun hk => absurd rfl hk⟩
  | started k' hk' _ hok hl hd =>
    cases hk'.symm.trans hq
    exact ⟨rfl, hok, fun _ => hl, fun _ => hd⟩

/-- A bus-driving command's step from its start, the first micro-operation being taken with the line released. -/
theorem afterRelease_inCommand {i : Instr} {first : State → State} {s : State} (hq : s.seq = .running i .start)
    (hb : s.busy = true) (hfirst : s.line = .released → InCommand i (first s)) :
    InCommand i (afterRelease first s) := by
  rcases afterRelease_cases first s with ⟨-, h⟩ | ⟨hl, h⟩ <;> rw [h]
  · exact .atStart hq hb
  · exact hfirst hl

section Slots

variable {s : State} (hb : s.busy = true) (hl : s.line = .released)
include hb hl

/-- Going on with a command other than the search. -/
theorem goTo_inCommand {i : Instr} {k : MicroState} (hi : i ≠ .srchNext) (hk : microOk i k = true) :
    InCommand i (goTo i k s) := .started k rfl hb hk hl fun h => absurd h hi

theorem owSelectSlot_inCommand (j : Nat) : InCommand .owSelect (owSelectSlot j s) := by
  unfold owSelectSlot
  split
  · apply goTo_inCommand
    exacts [hb, hl, nofun, by simp [microOk]; omega]
  · exact complete_inCommand _ _

theorem owWriteSlot_inCommand (b : Byte) (spu : Bool) (j : Nat) :
    InCommand (.owWrite b spu) (owWriteSlot b spu j s) := by
  unfold owWriteSlot
  split
  · apply goTo_inCommand
    exacts [hb, hl, nofun, by simp [microOk]; omega]
  · split
    next hspu =>
      apply goTo_inCommand
      exacts [hb, hl, nofun, hspu]
    · exact complete_inCommand _ _

/-- A read slot of the command's own goes to the next one: a slot that is not the last of its byte is not the last. -/
theorem owReadSlot_inCommand {n j : Nat} (hj : j < 8 * n) (acc : Byte) :
    InCommand (.owRead n) (owReadSlot n j acc s) := by
  simp only [owReadSlot, busReadBit_eq]
  split
  · split
    · apply goTo_inCommand
      exacts [hb, hl, nofun, by simp [microOk]; omega]
    · exact complete_inCommand _ _
  · apply goTo_inCommand
    exacts [hb, hl, nofun, by simp [microOk]; omega]

variable (hd : s.lastDevice = false)
include hd

/-- Going on with a search. -/
theorem goTo_srchNext_inCommand {k : MicroState} (hk : microOk .srchNext k = true) :
    InCommand .srchNext (goTo .srchNext k s) := .started k rfl hb hk hl fun _ => hd

theorem searchPulse_inCommand : InCommand .srchNext (searchPulse s) := by
  simp only [searchPulse, busReset_eq]
  split
  · apply goTo_srchNext_inCommand
    exacts [hb, hl, hd, rfl]
  · exact finishSearch_inCommand _ _

theorem searchByteSlot_inCommand (j : Nat) : InCommand .srchNext (searchByteSlot j s) := by
  unfold searchByteSlot
  split
  next hj =>
    apply goTo_srchNext_inCommand
    exacts [hb, hl, hd, by simpa [microOk] using hj]
  · apply goTo_srchNext_inCommand
    exacts [hb, hl, hd, rfl]

variable {n lastZero : Nat} (hn : 1 ≤ n ∧ n ≤ 64)
include hn

theorem searchReadFirst_inCommand (hz : lastZero < n) : InCommand .srchNext (searchReadFirst n lastZero s) := by
  simp only [searchReadFirst, busReadBit_eq]
  apply goTo_srchNext_inCommand
  exacts [hb, hl, hd, by simp [microOk, hn, hz]]

omit hb hl hd hn in
theorem lastZeroAfter_le (s : State) (hz : lastZero ≤ n) (a c : Bool) : lastZeroAfter s n lastZero a c ≤ n := by
  unfold lastZeroAfter
  split
  · exact le_rfl
  · exact hz

theorem searchReadSecond_inCommand (hz : lastZero < n) (a : Bool) :
    InCommand .srchNext (searchReadSecond n lastZero a s) := by
  simp only [searchReadSecond, busReadBit_eq]
  split
  · exact finishSearch_inCommand _ _
  · apply goTo_srchNext_inCommand
    exacts [hb, hl, hd, by simp [microOk, hn, lastZeroAfter_le s hz.le]]

theorem searchWriteSlot_inCommand (hz : lastZero ≤ n) (d : Bool) :
    InCommand .srchNext (searchWriteSlot n lastZero d s) := by
  unfold searchWriteSlot
  split
  next h =>
    apply goTo_srchNext_inCommand
    exacts [hb, hl, hd, by simp [microOk]; omega]
  · exact finishSearch_inCommand _ _

end Slots

/-! ### Where a micro-operation of each command leaves it -/

section Micro

variable {k : MicroState} {s : State} (hb : s.busy = true) (hl : k ≠ .start → s.line = .released)
include hb hl

omit hl in
theorem microOwReset_inCommand (hq : s.seq = .running .owReset k) (hk : microOk .owReset k = true) :
    InCommand .owReset (microOwReset k s) := by
  cases k with
  | start => exact afterRelease_inCommand hq hb fun _ => complete_inCommand _ _
  | _ => exact nomatch hk

theorem microOwSelect_inCommand (hq : s.seq = .running .owSelect k) (hk : microOk .owSelect k = true) :
    InCommand .owSelect (microOwSelect k s) := by
  cases k with
  | start => exact afterRelease_inCommand hq hb fun hl => owSelectSlot_inCommand hb hl 0
  | writeSlot j => exact owSelectSlot_inCommand hb (hl nofun) j
  | _ => exact nomatch hk

theorem microOwWrite_inCommand {b : Byte} {spu : Bool} (hq : s.seq = .running (.owWrite b spu) k)
    (hk : microOk (.owWrite b spu) k = true) : InCommand (.owWrite b spu) (microOwWrite b spu k s) := by
  cases k with
  | start => exact afterRelease_inCommand hq hb fun hl => owWriteSlot_inCommand hb hl b spu 0
  | writeSlot j => exact owWriteSlot_inCommand hb (hl nofun) b spu j
  | takeSpu => exact complete_inCommand _ _
  | _ => exact nomatch hk

theorem microOwRead_inCommand {n : Nat} (hq : s.seq = .running (.owRead n) k) (hn : 1 ≤ n)
    (hk : microOk (.owRead n) k = true) : InCommand (.owRead n) (microOwRead n k s) := by
  cases k with
  | start => exact afterRelease_inCommand hq hb fun hl => owReadSlot_inCommand hb hl (by omega) 0#8
  | readSlot j acc =>
    have hj : 1 ≤ j ∧ j < 8 * n := by simpa [microOk] using hk
    exact owReadSlot_inCommand hb (hl nofun) hj.2 acc
  | _ => exact nomatch hk

omit hl in
theorem searchStart_inCommand (hq : s.seq = .running .srchNext .start) : InCommand .srchNext (searchStart s) := by
  unfold searchStart
  split
  · exact finishSearch_inCommand _ _
  next hd => exact afterRelease_inCommand hq hb fun hl => searchPulse_inCommand hb hl (by simpa using hd)

theorem microSrchNext_inCommand (hq : s.seq = .running .srchNext k) (hk : microOk .srchNext k = true)
    (hd : k ≠ .start → s.lastDevice = false) : InCommand .srchNext (microSrchNext k s) := by
  cases k with
  | start => exact searchStart_inCommand hb hq
  | searchByte j => exact searchByteSlot_inCommand hb (hl nofun) (hd nofun) j
  | searchFirst n lastZero =>
    obtain ⟨h1, h64, hz⟩ : 1 ≤ n ∧ n ≤ 64 ∧ lastZero < n := by simpa [microOk] using hk
    exact searchReadFirst_inCommand hb (hl nofun) (hd nofun) ⟨h1, h64⟩ hz
  | searchSecond n lastZero a =>
    obtain ⟨h1, h64, hz⟩ : 1 ≤ n ∧ n ≤ 64 ∧ lastZero < n := by simpa [microOk] using hk
    exact searchReadSecond_inCommand hb (hl nofun) (hd nofun) ⟨h1, h64⟩ hz a
  | searchWrite n lastZero d =>
    obtain ⟨h1, h64, hz⟩ : 1 ≤ n ∧ n ≤ 64 ∧ lastZero ≤ n := by simpa [microOk] using hk
    exact searchWriteSlot_inCommand hb (hl nofun) (hd nofun) ⟨h1, h64⟩ hz d
  | _ => exact nomatch hk

end Micro

/-- A micro-operation of the running command completes it or leaves it at a micro-operation state of its own. -/
theorem microOf_inCommand {i : Instr} {k : MicroState} {s : State} (h : s.Inv) (hq : s.seq = .running i k) :
    InCommand i (microOf i k s) := by
  have hb : s.busy = true := h.busy_iff.mpr (by simp [hq])
  have hl := h.started_released i k hq
  obtain ⟨hwf, hk⟩ := h.running_ok i k hq
  cases i with
  | owReset => exact microOwReset_inCommand hb hq hk
  | owSelect => exact microOwSelect_inCommand hb hl hq hk
  | owWrite b spu => exact microOwWrite_inCommand hb hl hq hk
  | owRead n =>
    have hn : 1 ≤ n ∧ n ≤ 16 := by simpa [Instr.wf] using hwf
    exact microOwRead_inCommand hb hl hq hn.1 hk
  | srchNext => exact microSrchNext_inCommand hb hl hq hk (h.searching_open k hq)
  | _ => exact complete_inCommand _ _

/-! ### The search state -/

/-- LAST_DISCREPANCY is 0 to 64, and 0 after the last device (10_state.md R33, 42_search.md R165). -/
def SearchInRange (s : State) : Prop :=
  s.lastDiscrepancy ≤ 64 ∧ (s.lastDevice = true → s.lastDiscrepancy = 0)

theorem finishSearch_inRange (ok : Bool) {s : State} (h : SearchInRange s) : SearchInRange (finishSearch ok s) := by
  unfold finishSearch
  split
  · exact ⟨Nat.zero_le 64, fun _ => rfl⟩
  · exact h

theorem recordDiscrepancy_inRange {lastZero : Nat} {s : State} (hz : lastZero ≤ 64) (hd : s.lastDevice = false) :
    SearchInRange (recordDiscrepancy lastZero s) := by
  refine ⟨hz, fun h => ?_⟩
  by_cases h0 : lastZero = 0
  · exact h0
  · simp [recordDiscrepancy, h0, hd] at h

theorem searchPulse_inRange {s : State} (h : SearchInRange s) : SearchInRange (searchPulse s) := by
  simp only [searchPulse, busReset_eq]
  split
  · exact h
  · exact finishSearch_inRange _ h

theorem searchStart_inRange {s : State} (h : SearchInRange s) : SearchInRange (searchStart s) := by
  unfold searchStart
  split
  · exact finishSearch_inRange _ h
  · rcases afterRelease_cases searchPulse s with ⟨-, ha⟩ | ⟨-, ha⟩ <;> rw [ha]
    · exact h
    · exact searchPulse_inRange h

theorem searchReadSecond_inRange (n lastZero : Nat) (a : Bool) {s : State} (h : SearchInRange s) :
    SearchInRange (searchReadSecond n lastZero a s) := by
  simp only [searchReadSecond, busReadBit_eq]
  split
  · exact finishSearch_inRange _ h
  · exact h

theorem searchWriteSlot_inRange {n lastZero : Nat} (d : Bool) {s : State} (h : SearchInRange s)
    (hz : lastZero ≤ 64) (hd : s.lastDevice = false) : SearchInRange (searchWriteSlot n lastZero d s) := by
  unfold searchWriteSlot
  split
  · exact h
  · exact finishSearch_inRange _ (recordDiscrepancy_inRange hz hd)

theorem searchByteSlot_inRange (j : Nat) {s : State} (h : SearchInRange s) : SearchInRange (searchByteSlot j s) := by
  unfold searchByteSlot
  split <;> exact h

theorem searchReadFirst_inRange (n lastZero : Nat) {s : State} (h : SearchInRange s) :
    SearchInRange (searchReadFirst n lastZero s) := by
  simp only [searchReadFirst, busReadBit_eq]
  exact h

theorem microSrchNext_inRange {k : MicroState} {s : State} (h : SearchInRange s) (hk : microOk .srchNext k = true)
    (hd : k ≠ .start → s.lastDevice = false) : SearchInRange (microSrchNext k s) := by
  cases k with
  | searchByte j => exact searchByteSlot_inRange j h
  | searchFirst n lastZero => exact searchReadFirst_inRange n lastZero h
  | searchSecond n lastZero a => exact searchReadSecond_inRange n lastZero a h
  | searchWrite n lastZero d =>
    obtain ⟨-, h64, hz⟩ : 1 ≤ n ∧ n ≤ 64 ∧ lastZero ≤ n := by simpa [microOk] using hk
    exact searchWriteSlot_inRange d h (hz.trans h64) (hd nofun)
  | _ => exact searchStart_inRange h

/-- A micro-operation of the running command leaves the search state in range. -/
theorem microOf_inRange {i : Instr} {k : MicroState} {s : State} (h : s.Inv) (hq : s.seq = .running i k) :
    SearchInRange (microOf i k s) := by
  have hs : SearchInRange s := ⟨h.discrepancy_le, h.lastDevice_zero⟩
  by_cases hnext : i = .srchNext
  · subst hnext
    exact microSrchNext_inRange hs (h.running_ok _ k hq).2 (h.searching_open k hq)
  by_cases hreset : i = .srchReset
  · subst hreset
    exact ⟨Nat.zero_le 64, fun _ => rfl⟩
  obtain ⟨hdisc, hdev, -⟩ := microOf_search i k s hnext hreset
  rwa [SearchInRange, hdisc, hdev]

/-! ### The NTP unit -/

/-- The NTP unit under a micro-operation: NTP_START opens a window, any other command leaves it alone. -/
theorem microOf_ntp_inv {s : State} (h : s.Inv) (i : Instr) (k : MicroState) :
    ntpConsistent (microOf i k s) ∧ (microOf i k s).tickDiv < Config.ticksPerMs := by
  by_cases hi : i = .ntpStart
  · subst hi
    exact ⟨⟨Nat.zero_lt_succ _, rfl, rfl⟩, Nat.succ_pos _⟩
  · obtain ⟨hstate, helapsed, hraw, hseconds, -, -, hdiv⟩ := microOf_ntp i k s hi
    refine ⟨?_, hdiv ▸ h.tickDiv_lt⟩
    rw [ntpConsistent, hstate, helapsed, hraw, hseconds]
    exact h.ntp_ok

/-! ### Every step -/

theorem State.Inv.microOf_inv {i : Instr} {k : MicroState} {s : State} (h : s.Inv) (hr : s.inReset = false)
    (hq : s.seq = .running i k) : (microOf i k s).Inv := by
  obtain ⟨hntp, hdiv⟩ := microOf_ntp_inv h i k
  obtain ⟨hdisc, hdev⟩ := microOf_inRange h hq
  have hcmd := microOf_inCommand h hq
  have houtside := microOf_sameOutside i k s
  have hr' : (microOf i k s).inReset = false := houtside.inReset.trans hr
  exact {
    busy_iff := microOf_busyFitsSeq hq h.busy_iff
    spu_iff := microOf_spuFitsLine i k h.spu_iff
    running_ok := fun j k' hq' => by
      obtain ⟨rfl, hk, -, -⟩ := hcmd.of_running hq'
      exact ⟨(h.running_ok _ k hq).1, hk⟩
    started_released := fun j k' hq' => by
      obtain ⟨-, -, hl, -⟩ := hcmd.of_running hq'
      exact hl
    searching_open := fun k' hq' hk' => by
      obtain ⟨rfl, -, -, hopen⟩ := hcmd.of_running hq'
      exact hopen hk' rfl
    discrepancy_le := hdisc
    lastDevice_zero := hdev
    more_needs_code := by rw [houtside.errCode, houtside.errMore]; exact h.more_needs_code
    tickDiv_lt := hdiv
    ntp_ok := hntp
    reset_held := fun h' => nomatch hr'.symm.trans h' }

theorem inv_keptByAgents : KeptByAgents State.Inv where
  agents _ program schedule draws readLog h := h.agents_inv program schedule draws readLog
  write hr hw h := h.writeEffect_inv hr hw
  micro hr hq h := h.microOf_inv hr hq
  tick h := h.ntpTimerStep_inv

/-- Settles O54: every host write, micro-operation, tick and change of the reset input keeps the invariant. -/
theorem stepKeepsTheInvariant : Obligations.StepKeepsTheInvariant := fun _ _ h hs =>
  inv_keptByAgents.step_keeps (fun level _ h => h.resetPinStep_inv level) hs h

end Sys2Proof.Machine
end

section
/-! The register map, reserved offsets and read-only registers, STATUS, ERROR and the unspecified reads (10_state.md
R20 to R30, R47), and the reset values (R48), from the laws of one host access (Laws/Registers). -/

namespace Sys2Proof.Machine

/-! ### The register map (R20) -/

/-- The four reserved ranges of the map (R20). -/
@[reducible] def reservedOffset (off : Nat) : Prop :=
  (0x34 ≤ off ∧ off ≤ 0x3C) ∨ (0x50 ≤ off ∧ off ≤ 0x7C) ∨ (0xB0 ≤ off ∧ off ≤ 0xBC) ∨ (0xF0 ≤ off ∧ off ≤ 0xFC)

theorem regAt_eq_none_iff {off : Nat} (h4 : off % 4 = 0) (hlt : off < 256) :
    regAt off = none ↔ reservedOffset off := by
  have table : ∀ j < 64, regAt (4 * j) = none ↔ reservedOffset (4 * j) := by decide
  have hoff : 4 * (off / 4) = off := by omega
  simpa only [hoff] using table (off / 4) (by omega)

/-- The register found at an offset has that offset. -/
theorem offset_of_regAt {off : Nat} (h4 : off % 4 = 0) (hlt : off < 256) {r : Reg} (h : regAt off = some r) :
    r.offset = off := by
  have table : ∀ j < 64, ∀ r ∈ regAt (4 * j), r.offset = 4 * j := by decide
  have hoff : 4 * (off / 4) = off := by omega
  simpa only [hoff] using table (off / 4) (by omega) r (hoff.symm ▸ h)

/-- Settles O14: the table is `regAt` of each register's offset; the rest of the window is reserved. -/
theorem registerMapIsExact : Obligations.RegisterMapIsExact := by
  refine ⟨?_, fun r => ⟨offset_mod r, offset_lt r, regAt_offset r⟩, fun off h4 hlt => ?_⟩
  · exact ⟨rfl, rfl, rfl, rfl, rfl, rfl, rfl, rfl, rfl, rfl, rfl, rfl, rfl, fun k => regAt_offset (.buf k),
      fun k => regAt_offset (.ntpRx k), fun k => regAt_offset (.ntpTx k)⟩
  · cases h : regAt off with
    | none => exact .inr ⟨rfl, (regAt_eq_none_iff h4 hlt).mp h⟩
    | some r => exact .inl ⟨r, rfl, offset_of_regAt h4 hlt h⟩

/-! ### Reserved offsets, read-only registers, reserved bits (R21) -/

theorem readOffset_reserved {off : Nat} (h4 : off % 4 = 0) (h : regAt off = none) (s : State) :
    readOffset off .w32 s = (0#32, s) := by simp [readOffset, h4, h]

theorem writeOffset_reserved {off : Nat} (h4 : off % 4 = 0) (h : regAt off = none) (v : Word) (s : State) :
    writeOffset off .w32 v s = s := by simp [writeOffset, h4, h]

/-- A write of a register at a read-only offset is ignored. -/
theorem writeReg_readOnly {r : Reg}
    (h : r.offset = 0x04 ∨ r.offset = 0x0C ∨ (0x18 ≤ r.offset ∧ r.offset ≤ 0x2C) ∨
      (0xC0 ≤ r.offset ∧ r.offset ≤ 0xEC)) (v : Word) (s : State) : writeReg r v s = s := by
  cases r with
  | cmd | error | rom | ntpRxLen | buf | ntpRx => simp only [Reg.offset] at h; omega
  | _ => rfl

theorem getLsbD_setWidth_of_ge {w : Nat} (x : BitVec w) (v : Nat) {j : Nat} (h : w ≤ j) :
    (x.setWidth v).getLsbD j = false := by
  rw [BitVec.getLsbD_setWidth, BitVec.getLsbD_of_ge x j h, Bool.and_false]

/-- The bits of STATUS, least significant first (R23). -/
theorem statusWord_getLsbD (s : State) (j : Nat) : (statusWord s).getLsbD j =
    [s.busy, s.presence, s.found, s.crcMatch, s.spu, false, false, false, s.ntpState.bits.getLsbD 0,
      s.ntpState.bits.getLsbD 1].getD j false := by
  rcases Nat.lt_or_ge j 10 with hj | hj
  · simp only [statusWord, BitVec.getLsbD_setWidth, BitVec.getLsbD_append]
    interval_cases j <;> simp
  · rw [statusWord, getLsbD_setWidth_of_ge _ _ hj, List.getD_eq_default _ _ hj]

theorem statusWord_getLsbD_reserved (s : State) {j : Nat} (h : (5 ≤ j ∧ j ≤ 7) ∨ 10 ≤ j) :
    (statusWord s).getLsbD j = false := by
  rw [statusWord_getLsbD]
  rcases h with h | h
  · obtain rfl | rfl | rfl : j = 5 ∨ j = 6 ∨ j = 7 := by omega
    all_goals rfl
  · exact List.getD_eq_default _ _ h

theorem searchStateWord_getLsbD_reserved (s : State) {j : Nat} (h : j = 7 ∨ 9 ≤ j) :
    (searchStateWord s).getLsbD j = false := by
  rcases h with rfl | h
  · simp only [searchStateWord, BitVec.getLsbD_setWidth, BitVec.getLsbD_append]
    simp
  · exact getLsbD_setWidth_of_ge _ _ h

/-- Settles O15: a reserved offset finds no register, a read-only register ignores its write, and a reserved bit lies
past the fields the word is made of. -/
theorem reservedAndReadOnlyIgnoreWrites : Obligations.ReservedAndReadOnlyIgnoreWrites := by
  refine ⟨fun off v s h4 h => ?_, fun off v s h4 h => ?_, fun s j => ?_⟩
  · have hnone : regAt off = none := (regAt_eq_none_iff h4 (by omega)).mpr h
    exact ⟨readOffset_reserved h4 hnone s, writeOffset_reserved h4 hnone v s⟩
  · cases hr : regAt off with
    | none => exact writeOffset_reserved h4 hr v s
    | some r =>
      obtain rfl := offset_of_regAt h4 (by omega) hr
      rw [writeOffset_reg, writeReg_readOnly h]
  · exact ⟨statusWord_getLsbD_reserved s, getLsbD_setWidth_of_ge _ _, searchStateWord_getLsbD_reserved s,
      getLsbD_setWidth_of_ge _ _, fun h => ⟨getLsbD_setWidth_of_ge _ _ h, getLsbD_setWidth_of_ge _ _ h⟩⟩

/-! ### Unspecified and current reads (R47) -/

theorem unspecifiedNow_running {s : State} {i : Instr} {k : MicroState} (h : s.seq = .running i k) (r : Reg) :
    unspecifiedNow s r = multiStepTarget i r := by simp [unspecifiedNow, h]

theorem readOffset_of_unspecified {s : State} {r : Reg} (h : unspecifiedNow s r = true) :
    readOffset r.offset .w32 s = (Config.freeReadValue s.draws, { s with draws := s.draws + 1 }) := by
  simp [readOffset_reg, h, drawReadValue]

theorem readOffset_of_specified {s : State} {r : Reg} (h : unspecifiedNow s r = false) :
    readOffset r.offset .w32 s = (regValue s r, s) := by simp [readOffset_reg, h]

/-- Only OW_READ and SRCH_NEXT have multi-step targets, and these are they (R47). -/
theorem multiStepTarget_cases {i : Instr} {r : Reg} (h : multiStepTarget i r = true) :
    (∃ n b, i = .owRead n ∧ r = .buf b) ∨
      (i = .srchNext ∧ ((∃ b, r = .rom b ∨ r = .srom b) ∨ r = .searchState)) := by
  unfold multiStepTarget at h
  split at h
  · exact .inl ⟨_, _, rfl, rfl⟩
  · exact .inr ⟨rfl, .inl ⟨_, .inl rfl⟩⟩
  · exact .inr ⟨rfl, .inl ⟨_, .inr rfl⟩⟩
  · exact .inr ⟨rfl, .inr rfl⟩
  · exact nomatch h

/-- Settles O19: a read is unspecified exactly for the multi-step targets of the command that runs; STATUS alone shows
that a command was accepted. -/
theorem readsOfRunningTargetsAreFree : Obligations.ReadsOfRunningTargetsAreFree := by
  refine ⟨fun n k b s hq => ?_, fun k off s hq hoff => ?_, fun r s hread hsearch => ?_, fun i r s hr => ?_⟩
  · exact readOffset_of_unspecified (r := .buf b) (unspecifiedNow_running hq _)
  · have free (r : Reg) (h : multiStepTarget .srchNext r = true) :=
      readOffset_of_unspecified ((unspecifiedNow_running hq r).trans h)
    rcases hoff with rfl | rfl | rfl | rfl | rfl
    · exact free (.rom 0) rfl
    · exact free (.rom 1) rfl
    · exact free .searchState rfl
    · exact free (.srom 0) rfl
    · exact free (.srom 1) rfl
  · refine readOffset_of_specified ?_
    cases hq : s.seq with
    | idle => simp [unspecifiedNow, hq]
    | running i k =>
      rw [unspecifiedNow_running hq, Bool.eq_false_iff]
      intro h
      rcases multiStepTarget_cases h with ⟨n, b, rfl, hb⟩ | ⟨rfl, hr⟩
      · exact hread n k b hq hb
      · obtain ⟨hrom, hstate⟩ := hsearch k hq
        rcases hr with ⟨b, hb | hb⟩ | hr
        · exact (hrom b).1 hb
        · exact (hrom b).2 hb
        · exact hstate hr
  · cases r with
    | status => exact absurd rfl hr
    | _ => rfl

/-! ### STATUS and ERROR (R23, R30) -/

theorem statusWord_ntpState (s : State) : (statusWord s).extractLsb' 8 2 = s.ntpState.bits := by
  ext i hi
  rw [BitVec.getElem_extractLsb', statusWord_getLsbD]
  interval_cases i <;> rfl

/-- Settles O16: STATUS is never a command's target, and its word is the fields side by side. -/
theorem statusBitsAreTheFields : Obligations.StatusBitsAreTheFields := by
  intro s
  have hspec : unspecifiedNow s .status = false := by
    cases hq : s.seq with
    | idle => simp [unspecifiedNow, hq]
    | running i k => rw [unspecifiedNow_running hq]; cases i <;> rfl
  have hbit := statusWord_getLsbD s
  refine ⟨readOffset_of_specified hspec, hbit 0, hbit 1, hbit 2, hbit 3, hbit 4, ?_⟩
  rw [statusWord_ntpState]
  cases s.ntpState <;> rfl

/-- Settles O9: the write is `clearError`, after which CODE is none, as for a first error. -/
theorem writingErrorClearsIt : Obligations.WritingErrorClearsIt := by
  intro v s
  have hclear : writeOffset 0x08 .w32 v s = clearError s := writeOffset_reg .error v s
  refine ⟨hclear, fun code => ?_⟩
  rw [hclear, raiseError_eq]
  rfl

/-! ### The reset values (R48) -/

/-- The words of the request frame as NTP_TX shows them (43_ntp.md R190). -/
theorem packWord_txFrame : ∀ k < 12, packWord txFrame (4 * k) =
    if k = 0 then 0xEC0600E3#32 else if k = 3 then 0x34314E31#32 else 0x00000000#32 := by decide

/-- Settles O46: each field as `State.reset` gives it, the arrays byte by byte, and NTP_TX word by word. -/
theorem resetValues : Obligations.ResetValues := by
  have hbytes (i : Nat) : byteAt State.reset.rom i = 0#8 ∧ byteAt State.reset.srom i = 0#8 ∧
      byteAt State.reset.buf i = 0#8 ∧ byteAt State.reset.rx i = 0#8 :=
    ⟨byteAt_replicate i, byteAt_replicate i, byteAt_replicate i, byteAt_replicate i⟩
  have htx (k : Nat) (hk : k < 12) : (readOffset (0xC0 + 4 * k) .w32 State.reset).1 =
      if k = 0 then 0xEC0600E3#32 else if k = 3 then 0x34314E31#32 else 0x00000000#32 := by
    have hread := readOffset_of_specified (s := State.reset) (r := .ntpTx ⟨k, hk⟩) rfl
    exact (congrArg Prod.fst hread).trans (packWord_txFrame k hk)
  exact ⟨rfl, rfl, rfl, rfl, rfl, rfl, rfl, rfl, rfl, hbytes, rfl, rfl, rfl, rfl, rfl, rfl, htx, rfl, rfl, rfl, rfl⟩

end Sys2Proof.Machine
end

section
/-! What one host access does (20_memory.md R62 to R68): a refused access, command issue, writes of the byte arrays and
the registers' values as they are read; and a command's word run as one step (R66, R74; log entry 3). -/

namespace Sys2Proof.Machine

/-! ### A command run as one step (R66) -/

/-- Settles O56: the micro-operations that `exec` runs are the Sequencer's own, and once the command is complete the
Sequencer's steps do nothing. -/
theorem execIsAcceptanceAndSequencerSteps : Obligations.ExecIsAcceptanceAndSequencerSteps :=
  fun i _ h => exec_eq_repeat_sequencerStep i h

/-- The run of a legal word, with no command running and the reset input released, is `exec` of its command. -/
theorem runCommandWord_of_decode {w : Word} {i : Instr} {s : State} (h : Ready s) (hw : decode w = some i) :
    runCommandWord w s = exec i s := by
  obtain ⟨hr, hb⟩ := h
  simp [runCommandWord, hr, hb, hw]

/-- Settles O49: the turn is the host's, and its statement runs the word. -/
theorem stepRunsTheDecodedCommand : Obligations.StepRunsTheDecodedCommand := by
  intro s w i rest turns hready hw hprog hsched
  have hready' : Ready { s with program := rest, schedule := turns } := hready
  rw [step_hostTurn hsched, ← runCommandWord_of_decode hready' hw]
  simp only [hostStep, hprog, hostStmtStep]

/-! ### Refused accesses (R62) -/

/-- Settles O10: such an access is not admitted. -/
theorem badAccessIsRefused : Obligations.BadAccessIsRefused := by
  intro off width v s hbad
  have hrefused : admitted off width = false := by
    rw [Bool.eq_false_iff, ne_eq, admitted_iff]
    exact fun ⟨h4, hw⟩ => hbad.elim (· h4) (· hw)
  simp [writeOffset, readOffset, hrefused]

/-! ### Command issue and the writes that BUSY guards (R65, R66, R67) -/

section Issue

variable {s : State} {v : Word}

theorem issue_of_busy (v : Word) (hb : s.busy = true) : issue v s = raiseError .busyWrite s := by simp [issue, hb]

theorem issue_of_illegal (hb : s.busy = false) (hv : decode v = none) : issue v s = raiseError .illegalCmd s := by
  simp [issue, hb, hv]

theorem issue_of_legal {i : Instr} (hb : s.busy = false) (hv : decode v = some i) : issue v s = accept i s := by
  simp [issue, hb, hv]

theorem writeReg_rom_of_not_busy (k : Fin 2) (v : Word) (hb : s.busy = false) :
    writeReg (.rom k) v s = { s with rom := unpackWord s.rom (4 * k.val) v } := by simp [writeReg, unlessBusy, hb]

theorem writeReg_buf_of_not_busy (k : Fin 4) (v : Word) (hb : s.busy = false) :
    writeReg (.buf k) v s = { s with buf := unpackWord s.buf (4 * k.val) v } := by simp [writeReg, unlessBusy, hb]

end Issue

/-- Settles O6: a write of CMD is command issue, in its three cases. -/
theorem commandIssueOutcomes : Obligations.CommandIssueOutcomes := by
  intro v s
  have hcmd : writeOffset 0x00 .w32 v s = issue v s := writeOffset_reg .cmd v s
  rw [hcmd]
  exact ⟨issue_of_busy v, issue_of_illegal, fun _ => issue_of_legal⟩

/-- The registers whose writes are refused while BUSY = 1 (R67). -/
def Reg.lockedWhileBusy : Reg → Bool
  | .cmd | .rom _ | .buf _ => true
  | _ => false

theorem writeReg_locked {r : Reg} (h : r.lockedWhileBusy = true) (v : Word) {s : State} (hb : s.busy = true) :
    writeReg r v s = raiseError .busyWrite s := by
  cases r with
  | cmd => exact issue_of_busy v hb
  | rom | buf => exact if_pos hb
  | _ => exact nomatch h

/-- Settles O11: CMD refuses in command issue, ROM and BUF in the guard of their writes. -/
theorem busyRefusesCommandRomAndBufWrites : Obligations.BusyRefusesCommandRomAndBufWrites := by
  intro off v s hb hoff
  have refused (r : Reg) (h : r.lockedWhileBusy = true) := (writeOffset_reg r v s).trans (writeReg_locked h v hb)
  rcases hoff with rfl | rfl | rfl | rfl | rfl | rfl | rfl
  · exact refused .cmd rfl
  · exact refused (.rom 0) rfl
  · exact refused (.rom 1) rfl
  · exact refused (.buf 0) rfl
  · exact refused (.buf 1) rfl
  · exact refused (.buf 2) rfl
  · exact refused (.buf 3) rfl

/-! ### Reads (R63, R68) -/

/-- Settles O18: what a read does to the state, without the refused access. -/
theorem readsHaveNoSideEffect : Obligations.ReadsHaveNoSideEffect := by
  intro off s h4
  rcases readOffset_cases off .w32 s with ⟨-, h⟩ | ⟨-, h⟩ | ⟨hrefused, -⟩
  · exact .inl h
  · exact .inr h
  · exact absurd hrefused (by simp [h4])

/-- A read returns the current value unless the running command writes the register over several steps (10_state.md
R47). -/
theorem readOffset_of_not_target {r : Reg} {s : State}
    (h : ∀ i k, s.seq = .running i k → multiStepTarget i r = false) : (readOffset r.offset .w32 s).1 = regValue s r := by
  have hspec : unspecifiedNow s r = false := by
    cases hq : s.seq with
    | idle => simp [unspecifiedNow, hq]
    | running i k => rw [unspecifiedNow_running hq, h i k hq]
  rw [readOffset_of_specified hspec]

/-- The registers that no command writes over several steps. -/
def Reg.singleStep : Reg → Bool
  | .rom _ | .searchState | .srom _ | .buf _ => false
  | _ => true

theorem multiStepTarget_of_singleStep {r : Reg} (h : r.singleStep = true) (i : Instr) :
    multiStepTarget i r = false := by
  rw [Bool.eq_false_iff]
  intro ht
  rcases multiStepTarget_cases ht with ⟨_, _, -, rfl⟩ | ⟨-, ⟨_, rfl | rfl⟩ | rfl⟩ <;> exact nomatch h

theorem readOffset_singleStep {r : Reg} (h : r.singleStep = true) (s : State) :
    (readOffset r.offset .w32 s).1 = regValue s r :=
  readOffset_of_not_target fun i _ _ => multiStepTarget_of_singleStep h i

/-- BUF is a target of OW_READ alone. -/
theorem readOffset_buf {s : State} (h : ∀ n m, s.seq ≠ .running (.owRead n) m) (k : Fin 4) :
    (readOffset (Reg.buf k).offset .w32 s).1 = regValue s (.buf k) :=
  readOffset_of_not_target fun i m hq => by
    cases i with
    | owRead n => exact absurd hq (h n m)
    | _ => rfl

/-- Every register but BUF is a target of SRCH_NEXT alone, if of any command. -/
theorem readOffset_of_not_searching {r : Reg} {s : State} (hr : ∀ b, r ≠ .buf b)
    (h : ∀ m, s.seq ≠ .running .srchNext m) : (readOffset r.offset .w32 s).1 = regValue s r :=
  readOffset_of_not_target fun i m hq => by
    rw [Bool.eq_false_iff]
    intro ht
    rcases multiStepTarget_cases ht with ⟨_, b, -, hb⟩ | ⟨rfl, -⟩
    · exact hr b hb
    · exact h m hq

/-! ### A word of a byte array (R64, R65) -/

/-- Unpacking a word stores its bytes, the least significant first, and leaves the array's other bytes. -/
theorem unpackWord_stores {n : Nat} (x : Vector Byte n) {i : Nat} (v : Word) (h : i + 4 ≤ n) :
    (∀ j, j < 4 → byteAt (unpackWord x i v) (i + j) = v.extractLsb' (8 * j) 8) ∧
      ∀ m, m < i ∨ i + 4 ≤ m → byteAt (unpackWord x i v) m = byteAt x m := by
  refine ⟨fun j hj => ?_, fun m hm => ?_⟩ <;> rw [byteAt_unpackWord _ _ _ _ h]
  · rw [if_pos (by omega), Nat.add_sub_cancel_left]
  · rw [if_neg (by omega)]

/-- Settles O17: the new array is the old one with the word unpacked at the register's first byte. -/
theorem arrayWriteReadsBack : Obligations.ArrayWriteReadsBack := by
  intro v s
  refine ⟨fun hb hq => ⟨fun k => ?_, fun k => ?_⟩, fun k => ?_⟩
  · have hk : 4 * k.val + 4 ≤ 16 := by omega
    refine ⟨unpackWord s.buf (4 * k.val) v, ?_, ?_, unpackWord_stores _ _ hk⟩
    · exact (writeOffset_reg (.buf k) v s).trans (writeReg_buf_of_not_busy k v hb)
    · exact (readOffset_buf (by simp [hq]) k).trans (packWord_unpackWord _ _ _ hk)
  · have hk : 4 * k.val + 4 ≤ 8 := by omega
    refine ⟨unpackWord s.rom (4 * k.val) v, ?_, ?_, unpackWord_stores _ _ hk⟩
    · exact (writeOffset_reg (.rom k) v s).trans (writeReg_rom_of_not_busy k v hb)
    · exact (readOffset_of_not_searching (r := .rom k) nofun (by simp [hq])).trans (packWord_unpackWord _ _ _ hk)
  · have hk : 4 * k.val + 4 ≤ 48 := by omega
    refine ⟨unpackWord s.rx (4 * k.val) v, writeOffset_reg (.ntpRx k) v s, ?_, unpackWord_stores _ _ hk⟩
    exact (readOffset_singleStep (r := .ntpRx k) rfl _).trans (packWord_unpackWord _ _ _ hk)

/-! ### The fields in a register's value (10_state.md R30 to R40) -/

theorem errorWord_code (s : State) : (errorWord s).extractLsb' 0 8 = s.errCode.bits := by
  rw [errorWord, BitVec.extractLsb'_setWidth_of_le (by decide), BitVec.extractLsb'_append_eq_right]

theorem errorWord_more (s : State) : (errorWord s).getLsbD 8 = s.errMore := by
  simp only [errorWord, BitVec.getLsbD_setWidth, BitVec.getLsbD_append]
  simp

theorem searchStateWord_lastDiscrepancy {s : State} (h : s.lastDiscrepancy ≤ 64) :
    ((searchStateWord s).extractLsb' 0 7).toNat = s.lastDiscrepancy := by
  rw [searchStateWord, BitVec.extractLsb'_setWidth_of_le (by decide), BitVec.extractLsb'_append_eq_right,
    BitVec.toNat_ofNat]
  omega

theorem searchStateWord_lastDevice (s : State) : (searchStateWord s).getLsbD 8 = s.lastDevice := by
  simp only [searchStateWord, BitVec.getLsbD_setWidth, BitVec.getLsbD_append]
  simp

/-- Byte `j` of a read that gives a packed word. -/
theorem extractLsb'_of_eq_packWord {n : Nat} {x : Vector Byte n} {w : Word} {i j : Nat} (hw : w = packWord x i)
    (hj : j < 4) : w.extractLsb' (8 * j) 8 = byteAt x (i + j) := by rw [hw, extractLsb'_packWord x i hj]

/-- Settles O58: each register is read at its current value, which is its fields side by side. -/
theorem registersReadTheirFields : Obligations.RegistersReadTheirFields := by
  intro s
  have current {r : Reg} (h : r.singleStep = true) := readOffset_singleStep h s
  have herror : (readOffset 0x08 .w32 s).1 = errorWord s := current (r := .error) rfl
  have hcrc : (readOffset 0x0C .w32 s).1 = s.crcResult.setWidth 32 := current (r := .crcResult) rfl
  have helapsed : (readOffset 0x2C .w32 s).1 = s.ntpElapsed.setWidth 32 := current (r := .ntpElapsed) rfl
  have hrxLen : (readOffset 0x30 .w32 s).1 = s.ntpRxLen.setWidth 32 := current (r := .ntpRxLen) rfl
  have hsearchState (h : ∀ m, s.seq ≠ .running .srchNext m) : (readOffset 0x18 .w32 s).1 = searchStateWord s :=
    readOffset_of_not_searching (r := .searchState) nofun h
  refine ⟨current (r := .cmd) rfl, ?_, ?_, ?_, current (r := .ntpSeconds) rfl, current (r := .ntpRaw) rfl, ?_, ?_,
    fun k j hk hj => ?_, fun hsearch => ⟨fun k j hk hj => ⟨?_, ?_⟩, fun hle => ?_, ?_⟩, fun hread k j hk hj => ?_⟩
  · rw [herror, errorWord_code]
    cases s.errCode <;> rfl
  · rw [herror, errorWord_more]
  · rw [hcrc, BitVec.extractLsb'_setWidth_of_le (by decide), BitVec.extractLsb'_eq_self]
  · rw [helapsed, BitVec.extractLsb'_setWidth_of_le (by decide), BitVec.extractLsb'_eq_self]
  · rw [hrxLen, BitVec.extractLsb'_setWidth_of_le (by decide), BitVec.extractLsb'_eq_self]
  · exact extractLsb'_of_eq_packWord (current (r := .ntpRx ⟨k, hk⟩) rfl) hj
  · exact extractLsb'_of_eq_packWord (readOffset_of_not_searching (r := .rom ⟨k, hk⟩) nofun hsearch) hj
  · exact extractLsb'_of_eq_packWord (readOffset_of_not_searching (r := .srom ⟨k, hk⟩) nofun hsearch) hj
  · rw [hsearchState hsearch, searchStateWord_lastDiscrepancy hle]
  · rw [hsearchState hsearch, searchStateWord_lastDevice]
  · exact extractLsb'_of_eq_packWord (readOffset_buf hread ⟨k, hk⟩) hj

end Sys2Proof.Machine
end

section
/-! The command word and its fields (30_encoding.md R90): a word is fixed by its fields, so a legal word is the word of
the command it decodes to (R95), and the legal words are those of the opcode table's rows (R92). -/

namespace Sys2Proof.Machine

/-! ### A word is its fields (R90) -/

/-- Two words are equal exactly when their five fields are. -/
theorem word_eq_iff_fields (v w : Word) : v = w ↔ opField v = opField w ∧ argField v = argField w ∧
    spuField v = spuField w ∧ srcField v = srcField w ∧ rsvField v = rsvField w := by
  refine ⟨by rintro rfl; simp, fun ⟨hop, harg, hspu, hsrc, hrsv⟩ => BitVec.eq_of_getLsbD_eq fun i hi => ?_⟩
  have field {start len : Nat} (h : v.extractLsb' start len = w.extractLsb' start len) (hle : start ≤ i)
      (hlt : i < start + len) : v.getLsbD i = w.getLsbD i := by
    have hbit := congrArg (BitVec.getLsbD · (i - start)) h
    simpa [show i - start < len by omega, Nat.add_sub_cancel' hle] using hbit
  by_cases h8 : i < 8
  · exact field hop (by omega) (by omega)
  by_cases h16 : i < 16
  · exact field harg (by omega) (by omega)
  obtain rfl | rfl | h18 : i = 16 ∨ i = 17 ∨ 18 ≤ i := by omega
  · exact hspu
  · exact hsrc
  · exact field hrsv h18 (by omega)

theorem commandWord_eq_iff {op arg : Byte} {spu src : Bool} {w : Word} : commandWord op arg spu src = w ↔
    opField w = op ∧ argField w = arg ∧ spuField w = spu ∧ srcField w = src ∧ rsvField w = 0#14 := by
  simp [word_eq_iff_fields, eq_comm]

/-! ### A legal word is its command's own (R95) -/

section Decoded

variable {w : Word} {i j : Instr}

theorem encode_of_decodePlain {op : Byte} (hrsv : rsvField w = 0#14) (hop : opField w = op)
    (hi : encode i = commandWord op 0#8 false false)
    (h : decodePlain (argField w) (spuField w) (srcField w) i = .cmd j) : encode j = w := by
  unfold decodePlain at h
  split_ifs at h with hfields
  cases h
  obtain ⟨harg, hspu, hsrc⟩ := hfields
  exact hi.trans (commandWord_eq_iff.mpr ⟨hop, harg, hspu, hsrc, hrsv⟩)

theorem encode_of_decodeOwWrite (hrsv : rsvField w = 0#14) (hop : opField w = 0x03#8)
    (h : decodeOwWrite (argField w) (spuField w) (srcField w) = .cmd j) : encode j = w := by
  unfold decodeOwWrite at h
  split_ifs at h with hsrc
  cases h
  exact commandWord_eq_iff.mpr ⟨hop, rfl, rfl, hsrc, hrsv⟩

theorem encode_of_decodeOwRead (hrsv : rsvField w = 0#14) (hop : opField w = 0x04#8)
    (h : decodeOwRead (argField w) (spuField w) (srcField w) = .cmd j) : encode j = w := by
  unfold decodeOwRead at h
  split_ifs at h with hfields
  cases h
  obtain ⟨hspu, hsrc⟩ := hfields
  exact commandWord_eq_iff.mpr ⟨hop, by simp, hspu, hsrc, hrsv⟩

@[simp] theorem bit_crcSourceOf (src : Bool) : (crcSourceOf src).bit = src := by cases src <;> rfl

theorem encode_of_decodeCrc (hrsv : rsvField w = 0#14) (hop : opField w = 0x20#8)
    (h : decodeCrc (argField w) (spuField w) (srcField w) = .cmd j) : encode j = w := by
  unfold decodeCrc at h
  split_ifs at h with hspu
  cases h
  exact commandWord_eq_iff.mpr ⟨hop, by simp, hspu, by simp, hrsv⟩

theorem encode_of_decodeWord (h : decodeWord w = .cmd i) : encode i = w := by
  unfold decodeWord at h
  split at h
  · exact nomatch h
  next hrsv =>
    rw [ne_eq, not_not] at hrsv
    split_ifs at h with hop hop hop hop hop hop hop hop
    · exact encode_of_decodePlain hrsv hop rfl h
    · exact encode_of_decodePlain hrsv hop rfl h
    · exact encode_of_decodeOwWrite hrsv hop h
    · exact encode_of_decodeOwRead hrsv hop h
    · exact encode_of_decodePlain hrsv hop rfl h
    · exact encode_of_decodePlain hrsv hop rfl h
    · exact encode_of_decodeCrc hrsv hop h
    · exact encode_of_decodePlain hrsv hop rfl h

theorem encode_of_decode (h : decode w = some i) : encode i = w := by
  unfold decode at h
  split at h
  next hw => cases h; exact encode_of_decodeWord hw
  · exact nomatch h

theorem decode_eq_some_iff : decode w = some i ↔ i.wf = true ∧ encode i = w :=
  ⟨fun h => ⟨decode_wf h, encode_of_decode h⟩, by rintro ⟨hwf, rfl⟩; exact decode_encode hwf⟩

end Decoded

/-- Settles O3: it is `decode_encode`, one case per command. -/
theorem decodeOfEncodeIsIdentity : Obligations.DecodeOfEncodeIsIdentity := fun _ => decode_encode

/-- Settles O4: the decoder's branch gives every field of the word, and the fields give the word. -/
theorem decodedWordIsTheEncodedWord : Obligations.DecodedWordIsTheEncodedWord := fun _ _ => decode_eq_some_iff.mp

/-- Settles O1: each word is the word of its command, and the command is well formed. -/
theorem sampleWordsDecode : Obligations.SampleWordsDecode := by
  have legal {w : Word} {i : Instr} (hwf : i.wf = true) (hw : encode i = w) := decode_eq_some_iff.mpr ⟨hwf, hw⟩
  exact ⟨legal rfl rfl, legal rfl rfl, legal rfl rfl, legal rfl rfl, legal rfl rfl, legal rfl rfl, legal rfl rfl,
    legal rfl rfl, legal rfl rfl⟩

/-! ### The rows of the opcode table (R92) -/

/-- A word is legal exactly when it is the word of a well-formed command. -/
theorem decode_isSome_iff (w : Word) : (decode w).isSome = true ↔ ∃ i : Instr, i.wf = true ∧ encode i = w := by
  simp only [Option.isSome_iff_exists, decode_eq_some_iff]

/-- There is a command with `p` exactly when one of the eight opcodes has one. -/
theorem exists_instr_iff {p : Instr → Prop} : (∃ i, p i) ↔
    p .owReset ∨ p .owSelect ∨ (∃ b spu, p (.owWrite b spu)) ∨ (∃ n, p (.owRead n)) ∨ p .srchNext ∨ p .srchReset ∨
      (∃ src len, p (.crc src len)) ∨ p .ntpStart := by
  constructor
  · rintro ⟨i, hi⟩
    cases i with
    | owReset => exact .inl hi
    | owSelect => exact .inr (.inl hi)
    | owWrite b spu => exact .inr (.inr (.inl ⟨b, spu, hi⟩))
    | owRead n => exact .inr (.inr (.inr (.inl ⟨n, hi⟩)))
    | srchNext => exact .inr (.inr (.inr (.inr (.inl hi))))
    | srchReset => exact .inr (.inr (.inr (.inr (.inr (.inl hi)))))
    | crc src len => exact .inr (.inr (.inr (.inr (.inr (.inr (.inl ⟨src, len, hi⟩))))))
    | ntpStart => exact .inr (.inr (.inr (.inr (.inr (.inr (.inr hi))))))
  · rintro (h | h | ⟨_, _, h⟩ | ⟨_, h⟩ | h | h | ⟨_, _, h⟩ | h) <;> exact ⟨_, h⟩

section Rows

variable (v w : Word)

@[simp] theorem opField_and : opField (v &&& w) = opField v &&& opField w := BitVec.extractLsb'_and
@[simp] theorem argField_and : argField (v &&& w) = argField v &&& argField w := BitVec.extractLsb'_and
@[simp] theorem spuField_and : spuField (v &&& w) = (spuField v && spuField w) := BitVec.getLsbD_and
@[simp] theorem srcField_and : srcField (v &&& w) = (srcField v && srcField w) := BitVec.getLsbD_and
@[simp] theorem rsvField_and : rsvField (v &&& w) = rsvField v &&& rsvField w := BitVec.extractLsb'_and

/-- A row whose mask has all of OP and RSV and none of ARG, as those with an ARG range or a data byte have: SPU and SRC
are 0 where the mask has them. -/
theorem and_eq_commandWord_iff {mask : Word} (op : Byte) (spu src : Bool)
    (hop : opField mask = BitVec.allOnes 8) (harg : argField mask = 0#8) (hspu : spuField mask = spu)
    (hsrc : srcField mask = src) (hrsv : rsvField mask = BitVec.allOnes 14) :
    w &&& mask = commandWord op 0#8 false false ↔ opField w = op ∧
      (spuField w && spu) = false ∧ (srcField w && src) = false ∧ rsvField w = 0#14 := by
  simp [word_eq_iff_fields, hop, harg, hspu, hsrc, hrsv, -BitVec.reduceAllOnes]

variable {w}

theorem and_owWrite_mask_iff : w &&& 0xFFFE00FF#32 = 0x00000003#32 ↔
    ∃ b spu, (Instr.owWrite b spu).wf = true ∧ encode (.owWrite b spu) = w := by
  have hmask : w &&& 0xFFFE00FF#32 = 0x00000003#32 ↔ _ :=
    and_eq_commandWord_iff w 0x03#8 false true rfl rfl rfl rfl rfl
  simp [hmask, Instr.wf, encode, commandWord_eq_iff]

theorem and_owRead_mask_iff :
    (w &&& 0xFFFF00FF#32 = 0x00000004#32 ∧ 1 ≤ (argField w).toNat ∧ (argField w).toNat ≤ 16) ↔
      ∃ n, (Instr.owRead n).wf = true ∧ encode (.owRead n) = w := by
  have hmask : w &&& 0xFFFF00FF#32 = 0x00000004#32 ↔ _ :=
    and_eq_commandWord_iff w 0x04#8 true true rfl rfl rfl rfl rfl
  simp only [hmask, Bool.and_true, Instr.wf, encode, commandWord_eq_iff, decide_eq_true_eq]
  constructor
  · rintro ⟨⟨hop, hspu, hsrc, hrsv⟩, hrange⟩
    exact ⟨(argField w).toNat, hrange, hop, by simp, hspu, hsrc, hrsv⟩
  · rintro ⟨n, hrange, hop, harg, hspu, hsrc, hrsv⟩
    have hn : (argField w).toNat = n := by rw [harg, BitVec.toNat_ofNat]; omega
    exact ⟨⟨hop, hspu, hsrc, hrsv⟩, hn ▸ hrange⟩

theorem size_crcSourceOf (src : Bool) : (crcSourceOf src).size = if src then 8 else 16 := by cases src <;> rfl

theorem and_crc_mask_iff :
    (w &&& 0xFFFD00FF#32 = 0x00000020#32 ∧ (argField w).toNat ≤ if srcField w then 8 else 16) ↔
      ∃ src len, (Instr.crc src len).wf = true ∧ encode (.crc src len) = w := by
  have hmask : w &&& 0xFFFD00FF#32 = 0x00000020#32 ↔ _ :=
    and_eq_commandWord_iff w 0x20#8 true false rfl rfl rfl rfl rfl
  simp only [hmask, Bool.and_true, Bool.and_false, true_and, ← size_crcSourceOf, Instr.wf, encode, commandWord_eq_iff,
    decide_eq_true_eq]
  constructor
  · rintro ⟨⟨hop, hspu, hrsv⟩, hrange⟩
    exact ⟨crcSourceOf (srcField w), (argField w).toNat, hrange, hop, by simp, hspu, by simp, hrsv⟩
  · rintro ⟨src, len, hrange, hop, harg, hspu, hsrc, hrsv⟩
    have hlen : (argField w).toNat = len := by
      have := crcSource_size_le src
      rw [harg, BitVec.toNat_ofNat]; omega
    refine ⟨⟨hop, hspu, hrsv⟩, ?_⟩
    rwa [hlen, hsrc, crcSourceOf_bit]

end Rows

/-- Settles O5: a row is the words of its opcode's commands, and a legal word is the word of a command. -/
theorem legalWordsAreTheTableRows : Obligations.LegalWordsAreTheTableRows := by
  intro w
  have hall : w &&& 0xFFFFFFFF#32 = w := BitVec.and_allOnes
  have plain (p : Word) : w &&& 0xFFFFFFFF#32 = p ↔ p = w := by rw [hall, eq_comm]
  rw [decode_isSome_iff, exists_instr_iff, ← and_owWrite_mask_iff, ← and_owRead_mask_iff, ← and_crc_mask_iff]
  simp only [plain, Instr.wf, true_and]
  exact Iff.rfl

/-! ### The words of the assembler table (R98) -/

/-- ARG is the word's second byte. -/
theorem commandWord_eq_or (op arg : Byte) (spu src : Bool) :
    commandWord op arg spu src = commandWord op 0#8 spu src ||| (arg.setWidth 32 <<< 8) := by
  refine BitVec.eq_of_getLsbD_eq fun i hi => ?_
  simp only [commandWord, BitVec.getLsbD_or, BitVec.getLsbD_shiftLeft, BitVec.getLsbD_append, BitVec.getLsbD_setWidth]
  by_cases h8 : i < 8
  · simp [h8]
  by_cases h16 : i - 8 < 8
  · simp [h8, h16, hi, show i - 8 < 32 by omega]
  · simp [h8, h16, BitVec.getLsbD_of_ge arg (i - 8) (by omega)]

/-- Settles O2: ARG stands in its byte, beside the opcode, SPU and SRC. -/
theorem encodeGivesTheAssemblerWords : Obligations.EncodeGivesTheAssemblerWords := by
  have count {n : Nat} (hn : n ≤ 16) (op : Byte) (src : Bool) : commandWord op (BitVec.ofNat 8 n) false src =
      commandWord op 0#8 false src ||| (BitVec.ofNat 32 n <<< 8) := by
    rw [commandWord_eq_or, BitVec.setWidth_ofNat_of_le_of_lt (by decide) (by omega)]
  exact ⟨rfl, rfl, fun b => commandWord_eq_or _ b _ _, fun b => commandWord_eq_or _ b _ _, fun n hn => count hn _ _,
    rfl, rfl, fun len hlen => count hlen _ _, fun len hlen => count (by omega) _ _, rfl⟩

end Sys2Proof.Machine
end

section
/-! What the host's statements do: an illegal word written to CMD (30_encoding.md R96), and an access of the window or a
wait as one step (R99, 20_memory.md R61 to R65; log entries 1 and 10). -/

namespace Sys2Proof.Machine

/-! ### An illegal word (R96) -/

/-- Settles O7: the second outcome of command issue, with what raising an error does written out. -/
theorem illegalWordOnlyRaisesAnError : Obligations.IllegalWordOnlyRaisesAnError := by
  refine ⟨rfl, fun v s hb hv => ⟨raiseError .illegalCmd s, ?_, ?_, raiseError_eq _ s⟩⟩
  · exact (writeOffset_reg .cmd v s).trans (issue_of_illegal hb hv)
  · rw [raiseError_busy, hb]

/-! ### The host's statements (R99) -/

section HostStatements

variable {s : State} (hr : s.inReset = false)
include hr

theorem hostWrite_window {off : Nat} (hoff : off < 256) (width : AccessWidth) (v : Word) :
    hostWrite (Config.pBase + off) width v s = .next (writeOffset off width v s) := by
  simp [hostWrite, hoff, hr]

theorem hostRead_window {off : Nat} (hoff : off < 256) (width : AccessWidth) :
    hostRead (Config.pBase + off) width s =
      .next { (readOffset off width s).2 with readLog := s.readLog ++ [(readOffset off width s).1] } := by
  simp [hostRead, hoff, hr]

theorem hostPoll_released (again : HostStmt) (finished : Bool) :
    hostPoll again finished s = .next { s with
      readLog := s.readLog ++ [statusWord s]
      program := if finished then s.program else again :: s.program } := by
  simp [hostPoll, hr]

end HostStatements

/-- A step on the host's turn is its next statement, the turn and the statement taken off. -/
theorem step_hostStmt {s : State} {stmt : HostStmt} {rest : List HostStmt} {turns : List Turn}
    (hsched : s.schedule = .host :: turns) (hprog : s.program = stmt :: rest) :
    step s = hostStmtStep stmt { s with program := rest, schedule := turns } := by
  rw [step_hostTurn hsched]
  simp only [hostStep, hprog]

/-- Settles O50: the step is the host's statement, and each statement is its access or one round of its loop. -/
theorem stepRunsTheHostAccess : Obligations.StepRunsTheHostAccess := by
  refine ⟨fun s rest turns hr hsched => ?_, fun r v => ⟨offset_lt r, rfl, rfl⟩⟩
  have hr' : ({ s with program := rest, schedule := turns } : State).inReset = false := hr
  refine ⟨fun off width v hoff hprog => ?_, fun off width hoff hprog => ?_, fun hprog => ?_, fun hprog => ?_⟩ <;>
    rw [step_hostStmt hsched hprog]
  · exact hostWrite_window hr' hoff width v
  · exact hostRead_window hr' hoff width
  · refine (hostPoll_released hr' _ _).trans ?_
    cases hb : s.busy <;> simp [hb, statusWord]
  · refine (hostPoll_released hr' _ _).trans ?_
    cases hn : s.ntpState <;> simp [hn, ntpOver, statusWord]

end Sys2Proof.Machine
end

section
/-! The CRC-8 generator (40_crc.md). A step is XOR-linear and depends on the register and the byte through their XOR
alone, and it loses nothing of that XOR; so the function is linear, its residue is 0, and one changed byte shows. -/

namespace Sys2Proof.Machine

/-! ### Linearity (R114) -/

theorem foldl_crc8Step_xor {s t : List Byte} (h : s.length = t.length) (c d : Byte) :
    (List.zipWith (· ^^^ ·) s t).foldl crc8Step (c ^^^ d) = s.foldl crc8Step c ^^^ t.foldl crc8Step d := by
  induction s generalizing t c d with
  | nil => simp [List.length_eq_zero_iff.mp h.symm]
  | cons a s ih =>
    obtain ⟨b, t, rfl⟩ := List.exists_cons_of_length_eq_add_one h.symm
    rw [List.zipWith_cons_cons, List.foldl_cons, crc8Step_xor]
    exact ih (Nat.succ.inj h) _ _

/-- Settles O22: the register starts at `0 = 0 ^^^ 0`, and every step is XOR-linear. -/
theorem crcIsLinear : Obligations.CrcIsLinear :=
  fun _ _ h => foldl_crc8Step_xor h 0#8 0#8

/-! ### The residue (R115) -/

/-- A register that meets itself as the byte is only shifted. -/
theorem crc8Loop_self (k : Nat) (c : Byte) : crc8Loop k c c = c >>> k := by
  induction k generalizing c with
  | zero => simp [crc8Loop]
  | succ k ih =>
    have turn : crc8Bit c c = c >>> 1 := by simp [crc8Bit]
    rw [crc8Loop, turn, ih, ← BitVec.shiftRight_add, Nat.add_comm]

theorem crc8Step_self (c : Byte) : crc8Step c c = 0#8 :=
  (crc8Loop_self 8 c).trans (BitVec.ushiftRight_eq_zero (Nat.le_refl 8))

theorem crc8_concat_crc8 (s : List Byte) : crc8 (s ++ [crc8 s]) = 0#8 := by
  rw [crc8_concat, crc8Step_self]

/-- An array's prefix followed by its own check byte has CRC 0. -/
theorem crc8_take_succ_of_check {n : Nat} (x : Vector Byte n) {len : Nat} (h : len < n)
    (hcheck : byteAt x len = crc8 (x.toList.take len)) : crc8 (x.toList.take (len + 1)) = 0#8 := by
  have hlen : len < x.toList.length := by simpa using h
  have hbyte : x.toList[len] = crc8 (x.toList.take len) := by
    rw [← hcheck, byteAt_eq_getElem x h, Vector.getElem_toList]
  rw [List.take_succ_eq_append_getElem hlen, hbyte, crc8_concat_crc8]

/-- Settles O23: the check byte meets itself in the register; ROM is its first seven bytes and its check byte. -/
theorem crcResidueIsZero : Obligations.CrcResidueIsZero := by
  refine ⟨crc8_concat_crc8, fun rom hcheck => ?_, fun buf => crc8_take_succ_of_check buf (by decide)⟩
  have whole : rom.toList.take (7 + 1) = rom.toList := List.take_of_length_le (by simp)
  rw [← whole, crc8_take_succ_of_check rom (by decide) hcheck]

/-! ### Error detection (R118) -/

/-- A turn over a 0 bit shifts the register, and adds the polynomial when a 1 leaves it. -/
theorem crc8Bit_zero (r : Byte) : crc8Bit r 0#8 = if r[0] then (r >>> 1) ^^^ Config.crcPolyReflected else r >>> 1 := by
  unfold crc8Bit
  cases hr : r[0] <;> simp [BitVec.and_one_eq_setWidth_ofBool_getLsbD, hr]

/-- A turn that leaves 0 began at 0: a 1 that left would be back as the top bit, the polynomial's constant term. -/
theorem eq_zero_of_crc8Bit_eq_zero {r : Byte} (h : crc8Bit r 0#8 = 0#8) : r = 0#8 := by
  rw [crc8Bit_zero] at h
  cases low : r[0] with
  | true =>
    have top := congrArg (BitVec.getLsbD · 7) h
    simp [low, Config.crcPolyReflected] at top
  | false =>
    have shifted : r >>> 1 = 0#8 := by simpa [low] using h
    refine BitVec.eq_of_getLsbD_eq fun i _ => ?_
    cases i with
    | zero => exact low
    | succ i => simpa [Nat.add_comm] using congrArg (BitVec.getLsbD · i) shifted

theorem eq_zero_of_crc8Loop_eq_zero {k : Nat} {c : Byte} (h : crc8Loop k c 0#8 = 0#8) : c = 0#8 := by
  induction k generalizing c with
  | zero => exact h
  | succ k ih => exact eq_zero_of_crc8Bit_eq_zero (ih (by simpa [crc8Loop] using h))

/-- The step as a table of one byte has it: the register and the byte count through their XOR. -/
theorem crc8Step_eq_crc8Step_xor (c b : Byte) : crc8Step c b = crc8Step (c ^^^ b) 0#8 := by
  have h := crc8Step_xor (c ^^^ b) b 0#8 b
  rwa [crc8Step_self, BitVec.xor_assoc, BitVec.xor_self, BitVec.xor_zero, BitVec.zero_xor, BitVec.xor_zero] at h

/-- A step loses nothing of that XOR. -/
theorem crc8Step_eq_iff (c b d e : Byte) : crc8Step c b = crc8Step d e ↔ c ^^^ b = d ^^^ e := by
  rw [crc8Step_eq_crc8Step_xor c, crc8Step_eq_crc8Step_xor d]
  refine ⟨fun h => ?_, fun h => h ▸ rfl⟩
  have hzero : crc8Step ((c ^^^ b) ^^^ (d ^^^ e)) 0#8 = 0#8 := by
    simpa [h] using crc8Step_xor (c ^^^ b) (d ^^^ e) 0#8 0#8
  exact BitVec.xor_eq_zero_iff.mp (eq_zero_of_crc8Loop_eq_zero hzero)

theorem foldl_crc8Step_inj (s : List Byte) {c d : Byte} : s.foldl crc8Step c = s.foldl crc8Step d ↔ c = d := by
  induction s generalizing c d with
  | nil => rfl
  | cons b s ih => rw [List.foldl_cons, List.foldl_cons, ih, crc8Step_eq_iff, BitVec.xor_left_inj]

/-- Any change of one byte shows in the CRC. -/
theorem crc8_set_eq_iff {s : List Byte} {i : Nat} (h : i < s.length) (b : Byte) :
    crc8 (s.set i b) = crc8 s ↔ b = s[i] := by
  have whole : crc8 s = crc8 (s.take i ++ s[i] :: s.drop (i + 1)) := by simp
  rw [whole, List.set_eq_take_append_cons_drop, if_pos h, crc8_append, crc8_append, List.foldl_cons, List.foldl_cons,
    foldl_crc8Step_inj, crc8Step_eq_iff, BitVec.xor_right_inj]

/-- Settles O24: the flipped byte is another byte. -/
theorem crcDetectsEverySingleBitFlip : Obligations.CrcDetectsEverySingleBitFlip := by
  intro s i k h hk
  have flip : 1#8 <<< k ≠ 0#8 := by
    intro h0
    simpa [hk] using congrArg (BitVec.getLsbD · k) h0
  rw [Ne, crc8_set_eq_iff h]
  exact fun same => flip ((BitVec.xor_right_inj s[i]).mp (same.trans BitVec.xor_zero.symm))

/-! ### The corner cases (R113) -/

theorem crc8_replicate_zero (n : Nat) : crc8 (List.replicate n 0#8) = 0#8 := by
  induction n with
  | zero => rfl
  | succ n ih => rw [List.replicate_succ', crc8_concat, ih, crc8Step_self]

/-- Settles O21: a zero byte leaves a zero register, and the two values are computed. -/
theorem crcCornerCases : Obligations.CrcCornerCases :=
  ⟨crc8_nil, crc8_replicate_zero, fun _ => rfl, by decide, by decide⟩

/-! ### The command (R116) -/

theorem toList_getElem?_eq_some_iff {n : Nat} (x : Vector Byte n) (i : Nat) (b : Byte) :
    x.toList[i]? = some b ↔ i < n ∧ byteAt x i = b := by
  by_cases h : i < n <;> simp [h, byteAt_eq_getElem]

theorem crcCheck_iff (src : CrcSource) (len : Nat) (s : State) :
    crcCheck src len s = true ↔ (crcArray src s)[len]? = some (crcOf src len s) := by
  unfold crcCheck
  cases (crcArray src s)[len]? <;> simp

theorem crcCheck_eq_decide {src : CrcSource} {s : State} {n : Nat} {x : Vector Byte n} (hx : crcArray src s = x.toList)
    (len : Nat) : crcCheck src len s = decide (len < n ∧ byteAt x len = crcOf src len s) := by
  rw [Bool.eq_iff_iff, crcCheck_iff, hx, toList_getElem?_eq_some_iff, decide_eq_true_iff]

/-- Accepted over the array `x`, the command completes in its one step. -/
theorem exec_crc_of_ready {src : CrcSource} {s : State} {n : Nat} {x : Vector Byte n} (hx : crcArray src s = x.toList)
    (len : Nat) (h : Ready s) :
    exec (.crc src len) s = .next { s with
      crcResult := crc8 (x.toList.take len)
      crcMatch := decide (len < n ∧ byteAt x len = crc8 (x.toList.take len))
      busy := false
      seq := .idle } := by
  have hxa : crcArray src (accept (.crc src len) s) = x.toList := hx
  have hcrc : crcOf src len (accept (.crc src len) s) = crc8 (x.toList.take len) := by rw [crcOf, hxa]
  have hstep : Nat.repeat sequencerStep (maxSteps (.crc src len)) (accept (.crc src len) s) =
      microCrc src len .start (accept (.crc src len) s) := 
    sequencerStep_running (s := accept (.crc src len) s) h.1 rfl
  rw [exec_eq_repeat_sequencerStep _ h, hstep, microCrc, crcCheck_eq_decide hxa, hcrc]
  rfl

/-- Settles O20: BUSY refuses the command, and otherwise its one step reads BUF's 16 bytes or ROM's 8. -/
theorem crcCommandComputesAndChecks : Obligations.CrcCommandComputesAndChecks := by
  intro src len s hr
  refine ⟨fun hb => ?_, fun hb _ hsrc => ?_, fun hb _ hsrc => ?_⟩
  · simp [exec_eq, issueAndRun, hr, hb]
  · exact exec_crc_of_ready (x := s.buf) (hsrc ▸ rfl) len ⟨hr, hb⟩
  · exact exec_crc_of_ready (x := s.rom) (hsrc ▸ rfl) len ⟨hr, hb⟩

end Sys2Proof.Machine
end

section
/-! The 1-Wire bus controller's commands (41_onewire.md R131 to R143): what one micro-operation logs, what the prelude
does to a whole run, and the runs of OW_RESET, OW_SELECT, OW_WRITE and OW_READ as the states after each of their
slots. -/

namespace Sys2Proof.Machine

/-! ### One event per bus micro-operation (R131) -/

/-- The history of `t` is that of `s` and one event more. -/
def OneEvent (s t : State) : Prop := ∃ e, t.hist = s.hist ++ [e]

/-- The prelude's step is an event itself. -/
theorem afterRelease_oneEvent {first : State → State} {s : State} (h : OneEvent s (first s)) :
    OneEvent s (afterRelease first s) := by
  rcases afterRelease_cases first s with ⟨-, ha⟩ | ⟨-, ha⟩ <;> rw [ha]
  · exact ⟨.spuOff, rfl⟩
  · exact h

theorem owResetPulse_oneEvent (s : State) : OneEvent s (owResetPulse s) := by
  rw [owResetPulse, busReset_eq]
  exact ⟨_, rfl⟩

theorem owSelectSlot_oneEvent (j : Nat) (s : State) : OneEvent s (owSelectSlot j s) := by
  unfold owSelectSlot
  split <;> exact ⟨_, rfl⟩

theorem owWriteSlot_oneEvent (b : Byte) (spu : Bool) (j : Nat) (s : State) : OneEvent s (owWriteSlot b spu j s) := by
  unfold owWriteSlot
  split_ifs <;> exact ⟨_, rfl⟩

theorem owReadSlot_oneEvent (n j : Nat) (acc : Byte) (s : State) : OneEvent s (owReadSlot n j acc s) := by
  simp only [owReadSlot, busReadBit_eq]
  split_ifs <;> exact ⟨_, rfl⟩

@[simp] theorem finishSearch_hist (ok : Bool) (s : State) : (finishSearch ok s).hist = s.hist := by
  unfold finishSearch
  split <;> rfl

theorem searchPulse_oneEvent (s : State) : OneEvent s (searchPulse s) := by
  simp only [searchPulse, busReset_eq]
  split
  · exact ⟨_, rfl⟩
  · exact ⟨_, finishSearch_hist _ _⟩

theorem searchByteSlot_oneEvent (j : Nat) (s : State) : OneEvent s (searchByteSlot j s) := by
  unfold searchByteSlot
  split <;> exact ⟨_, rfl⟩

theorem searchReadFirst_oneEvent (n lastZero : Nat) (s : State) : OneEvent s (searchReadFirst n lastZero s) := by
  rw [searchReadFirst, busReadBit_eq]
  exact ⟨_, rfl⟩

theorem searchReadSecond_oneEvent (n lastZero : Nat) (a : Bool) (s : State) :
    OneEvent s (searchReadSecond n lastZero a s) := by
  simp only [searchReadSecond, busReadBit_eq]
  split
  · exact ⟨_, finishSearch_hist _ _⟩
  · exact ⟨_, rfl⟩

theorem searchWriteSlot_oneEvent (n lastZero : Nat) (d : Bool) (s : State) :
    OneEvent s (searchWriteSlot n lastZero d s) := by
  unfold searchWriteSlot
  split
  · exact ⟨_, rfl⟩
  · exact ⟨_, finishSearch_hist _ _⟩

theorem microOwSelect_oneEvent (k : MicroState) (s : State) : OneEvent s (microOwSelect k s) := by
  cases k with
  | start => exact afterRelease_oneEvent (owSelectSlot_oneEvent 0 s)
  | _ => exact owSelectSlot_oneEvent _ s

theorem microOwWrite_oneEvent (b : Byte) (spu : Bool) (k : MicroState) (s : State) :
    OneEvent s (microOwWrite b spu k s) := by
  cases k with
  | start => exact afterRelease_oneEvent (owWriteSlot_oneEvent b spu 0 s)
  | takeSpu => exact ⟨.spuOn, rfl⟩
  | _ => exact owWriteSlot_oneEvent b spu _ s

theorem microOwRead_oneEvent (n : Nat) (k : MicroState) (s : State) : OneEvent s (microOwRead n k s) := by
  cases k with
  | start => exact afterRelease_oneEvent (owReadSlot_oneEvent n 0 0#8 s)
  | _ => exact owReadSlot_oneEvent n _ _ s

/-- After the last device of a pass SRCH_NEXT answers `None` at once (42_search.md R166). -/
theorem searchStart_of_lastDevice {s : State} (h : s.lastDevice = true) :
    searchStart s = complete (searchNone s) := by simp [searchStart, h, finishSearch]

theorem searchStart_oneEvent {s : State} (h : s.lastDevice = false) : OneEvent s (searchStart s) := by
  have hstart : searchStart s = afterRelease searchPulse s := by simp [searchStart, h]
  rw [hstart]
  exact afterRelease_oneEvent (searchPulse_oneEvent s)

/-- A step of SRCH_NEXT that does not end a pass at once. -/
theorem microSrchNext_oneEvent {k : MicroState} {s : State} (hk : microOk .srchNext k = true)
    (h : k = .start → s.lastDevice = false) : OneEvent s (microSrchNext k s) := by
  cases k with
  | start => exact searchStart_oneEvent (h rfl)
  | searchByte j => exact searchByteSlot_oneEvent j s
  | searchFirst n lastZero => exact searchReadFirst_oneEvent n lastZero s
  | searchSecond n lastZero a => exact searchReadSecond_oneEvent n lastZero a s
  | searchWrite n lastZero d => exact searchWriteSlot_oneEvent n lastZero d s
  | _ => exact nomatch hk

/-- Settles O29: each slot, pulse and change of the strong pull-up is one event, and the prelude's step is one too. -/
theorem eachBusMicroOperationIsOneEvent : Obligations.EachBusMicroOperationIsOneEvent := by
  intro i k s hr hq hk
  rw [sequencerStep_running hr hq]
  cases i with
  | owReset => exact afterRelease_oneEvent (owResetPulse_oneEvent s)
  | owSelect => exact microOwSelect_oneEvent k s
  | owWrite b spu => exact microOwWrite_oneEvent b spu k s
  | owRead n => exact microOwRead_oneEvent n k s
  | srchNext =>
    refine ⟨fun hstart hd => ?_, fun h => microSrchNext_oneEvent hk fun hstart => ?_⟩
    · subst hstart
      exact (congrArg State.hist (searchStart_of_lastDevice hd)).trans rfl
    · exact Bool.eq_false_iff.mpr fun hd => h ⟨hstart, hd⟩
  | srchReset | crc | ntpStart => rfl

/-! ### A command's run (20_memory.md R66) -/

theorem exec_of_busy (i : Instr) {s : State} (hr : s.inReset = false) (hb : s.busy = true) :
    exec i s = .next (raiseError .busyWrite s) := by simp [exec_eq, issueAndRun, hr, hb]

theorem exec_of_ready (i : Instr) {s : State} (h : Ready s) :
    exec i s = .next (runMicro (microOf i) (maxSteps i) (accept i s)) := by
  obtain ⟨hr, hb⟩ := h
  simp [exec_eq, issueAndRun, hr, hb]

/-- A command that its first micro-operation completes. -/
theorem exec_of_complete_at_once {i : Instr} {s : State} (h : Ready s)
    (hidle : (microOf i .start (accept i s)).seq = .idle) :
    exec i s = .next (microOf i .start (accept i s)) := by
  obtain ⟨n, hn⟩ : ∃ n, maxSteps i = n + 1 := Nat.exists_eq_add_one.mpr (by cases i <;> simp [maxSteps])
  rw [exec_of_ready i h, hn, runMicro_running (i := i) (k := .start) _ _ rfl, runMicro_idle _ _ hidle]

/-- A run through the states `trace 0`, `trace 1`, … is as long as each of them leads to the next. -/
theorem runMicro_trace {micro : MicroState → State → State} {trace : Nat → State} {i : Instr} {k : Nat → MicroState}
    (hseq : ∀ j, (trace j).seq = .running i (k j)) {m : Nat}
    (hstep : ∀ j < m, micro (k j) (trace j) = trace (j + 1)) : runMicro micro m (trace 0) = trace m := by
  induction m with
  | zero => rfl
  | succ m ih =>
    rw [runMicro_add, ih fun j hj => hstep j (by omega), runMicro_running _ _ (hseq m), hstep m (by omega)]
    rfl

/-! ### No other agent and no other command drives the bus (R135) -/

/-- The commands of R135's second clause complete in their first micro-operation and leave the bus as it is. -/
theorem microOf_start_sameBus {i : Instr} {s : State} (h : i = .srchReset ∨ i = .ntpStart ∨
    (∃ src len, i = .crc src len) ∨ (i = .srchNext ∧ s.lastDevice = true)) :
    (microOf i .start (accept i s)).seq = .idle ∧ SameBus s (microOf i .start (accept i s)) := by
  rcases h with rfl | rfl | ⟨src, len, rfl⟩ | ⟨rfl, hd⟩
  · exact ⟨rfl, rfl, rfl, rfl, rfl⟩
  · exact ⟨rfl, rfl, rfl, rfl, rfl⟩
  · exact ⟨rfl, rfl, rfl, rfl, rfl⟩
  · have hnone : microOf .srchNext .start (accept .srchNext s) = _ :=
      searchStart_of_lastDevice (s := accept .srchNext s) hd
    rw [hnone]
    exact ⟨rfl, rfl, rfl, rfl, rfl⟩

theorem readOffset_line (off : Nat) (width : AccessWidth) (s : State) :
    (readOffset off width s).2.line = s.line := by
  rcases readOffset_cases off width s with ⟨-, h⟩ | ⟨-, h⟩ | ⟨-, h⟩ <;> rw [h]
  exact raiseError_line _ s

/-- Settles O31: host accesses and ticks leave the bus alone, and so does a command that completes in its first
micro-operation without driving it. -/
theorem onlyBusDrivingCommandsChangeTheLine : Obligations.OnlyBusDrivingCommandsChangeTheLine := by
  refine ⟨fun off width v s => ⟨(writeOffset_effect off width v s).sameBus.line, readOffset_line off width s⟩,
    fun s => (ntpTimerStep_sameBus s).line, fun i s t hi ht => ?_⟩
  have hbus : SameBus s t := by
    cases hr : s.inReset with
    | true => simp [exec_eq, issueAndRun, hr] at ht
    | false =>
      cases hb : s.busy with
      | true =>
        rw [exec_of_busy i hr hb] at ht
        cases ht
        exact raiseError_sameBus _ s
      | false =>
        obtain ⟨hidle, hsame⟩ := microOf_start_sameBus hi
        rw [exec_of_complete_at_once ⟨hr, hb⟩ hidle] at ht
        cases ht
        exact hsame
  exact ⟨hbus.line, hbus.spu⟩

/-! ### The prelude (R135) -/

theorem afterRelease_of_released {s : State} (h : s.line = .released) (first : State → State) :
    afterRelease first s = first s := by simp [afterRelease, h]

theorem afterPrelude_of_spu {s : State} (h : s.line = .spu) : afterPrelude s = releaseSpu s := if_pos h

theorem afterPrelude_of_released {s : State} (h : s.line = .released) : afterPrelude s = s := by
  simp [afterPrelude, h]

theorem afterPrelude_line (s : State) : (afterPrelude s).line = .released := by
  cases h : s.line with
  | released => rw [afterPrelude_of_released h, h]
  | spu => rw [afterPrelude_of_spu h, releaseSpu_line]

@[simp] theorem afterPrelude_rom (s : State) : (afterPrelude s).rom = s.rom := by
  unfold afterPrelude; split <;> rfl

@[simp] theorem afterPrelude_buf (s : State) : (afterPrelude s).buf = s.buf := by
  unfold afterPrelude; split <;> rfl

@[simp] theorem afterPrelude_answer (s : State) (j : Nat) : (afterPrelude s).answer j = s.answer j := by
  unfold afterPrelude; split <;> rfl

/-- A bus-driving command that completes within `n` steps from a released line: with the prelude's step taken first,
where there is one, its effect is that from the state after the prelude. -/
theorem exec_of_prelude {i : Instr} {first : State → State} {n : Nat} {s t : State} (h : Ready s)
    (hstart : microOf i .start = afterRelease first) (hmax : maxSteps i = n + 1)
    (hrun : runMicro (microOf i) n (accept i (afterPrelude s)) = t) (hidle : t.seq = .idle) :
    exec i s = .next t := by
  rw [exec_of_ready i h, hmax]
  cases hl : s.line with
  | released =>
    rw [afterPrelude_of_released hl] at hrun
    rw [runMicro_add, hrun, runMicro_idle _ _ hidle]
  | spu =>
    have hrelease : microOf i .start (accept i s) = accept i (afterPrelude s) := by
      rw [hstart, afterPrelude_of_spu hl]
      exact if_pos hl
    rw [runMicro_running (i := i) (k := .start) _ _ rfl, hrelease, hrun]

/-! ### OW_RESET (R140) -/

theorem owResetPulse_eq (s : State) : owResetPulse s = { s.afterAnswers 1 with
    presence := s.answer 0
    hist := s.hist ++ [.reset (s.answer 0)]
    busy := false
    seq := .idle } := by
  rw [owResetPulse, busReset_eq]
  rfl

/-- Settles O25: after the prelude the pulse is the command's only step. -/
theorem owResetSamplesPresence : Obligations.OwResetSamplesPresence := by
  refine fun s hr => ⟨exec_of_busy _ hr, fun hb => ?_⟩
  refine exec_of_prelude (first := owResetPulse) (n := 1) ⟨hr, hb⟩ rfl rfl ?_ rfl
  have hpulse : microOf .owReset .start (accept .owReset (afterPrelude s)) =
      owResetPulse (accept .owReset (afterPrelude s)) :=
    afterRelease_of_released (s := accept .owReset (afterPrelude s)) (afterPrelude_line s) owResetPulse
  have hanswer : (accept .owReset (afterPrelude s)).answer 0 = s.answer 0 := afterPrelude_answer s 0
  rw [runMicro_running (i := .owReset) (k := .start) _ _ rfl, hpulse, owResetPulse_eq, hanswer]
  rfl

/-! ### Write slots (R134) -/

/-- The write slots of bytes are those of their bits in bus order. -/
theorem writeEvents_eq_map (bytes : List Byte) : writeEvents bytes =
    (List.range (8 * bytes.length)).map fun j => .w ((bytes.getD (j / 8) 0#8).getLsbD (j % 8)) := by
  induction bytes with
  | nil => rfl
  | cons b bytes ih =>
    have hcons : writeEvents (b :: bytes) = (List.range 8).map (fun j => .w (b.getLsbD j)) ++ writeEvents bytes := rfl
    rw [hcons, ih, List.length_cons, Nat.mul_succ, Nat.add_comm, List.range_add, List.map_append, List.map_map]
    refine congrArg₂ _ (List.map_congr_left fun j hj => ?_) (List.map_congr_left fun j _ => ?_)
    · have hj : j < 8 := List.mem_range.mp hj
      simp [show j / 8 = 0 by omega, Nat.mod_eq_of_lt hj]
    · simp [show (8 + j) / 8 = j / 8 + 1 by omega]

/-- `s` with write slots 0 to `j - 1` of `bit` done. -/
def wroteSlots (bit : Nat → Bool) (j : Nat) (s : State) : State :=
  { s with hist := s.hist ++ (List.range j).map fun m => .w (bit m) }

theorem busWriteBit_wroteSlots (bit : Nat → Bool) (j : Nat) (s : State) :
    busWriteBit (bit j) (wroteSlots bit j s) = wroteSlots bit (j + 1) s := by
  simp [busWriteBit, logEvent, wroteSlots, List.range_succ]

/-- Where a write command stands when write slot `j` comes next. -/
def writeMicro : Nat → MicroState
  | 0 => .start
  | j + 1 => .writeSlot (j + 1)

/-- The write command `i`, accepted in `s`, when write slot `j` comes next. -/
def writeTrace (i : Instr) (bit : Nat → Bool) (s : State) (j : Nat) : State :=
  goTo i (writeMicro j) (wroteSlots bit j (accept i s))

theorem writeTrace_zero (i : Instr) (bit : Nat → Bool) (s : State) : writeTrace i bit s 0 = accept i s := by
  simp [writeTrace, wroteSlots, writeMicro, goTo, accept]

theorem busWriteBit_writeTrace (i : Instr) (bit : Nat → Bool) (s : State) (j : Nat) :
    busWriteBit (bit j) (writeTrace i bit s j) = goTo i (writeMicro j) (wroteSlots bit (j + 1) (accept i s)) :=
  congrArg (goTo i (writeMicro j)) (busWriteBit_wroteSlots bit j (accept i s))

theorem complete_busWriteBit_writeTrace (i : Instr) (bit : Nat → Bool) (s : State) (j : Nat) :
    complete (busWriteBit (bit j) (writeTrace i bit s j)) = complete (wroteSlots bit (j + 1) s) :=
  (congrArg complete (busWriteBit_writeTrace i bit s j):)

/-- The first `m` slots of a write command whose slot `j`, for `j < m`, goes on with slot `j + 1`. -/
theorem runMicro_writeSlots {micro : MicroState → State → State} {i : Instr} {bit : Nat → Bool} {s : State} {m : Nat}
    (hslot : ∀ j < m, micro (writeMicro j) (writeTrace i bit s j) =
      goTo i (.writeSlot (j + 1)) (busWriteBit (bit j) (writeTrace i bit s j))) :
    runMicro micro m (accept i s) = writeTrace i bit s m := by
  rw [← writeTrace_zero i bit s]
  exact runMicro_trace (k := writeMicro) (fun _ => rfl) fun j hj =>
    (hslot j hj).trans (congrArg (goTo i (.writeSlot (j + 1))) (busWriteBit_writeTrace i bit s j):)

/-! ### OW_SELECT (R141) -/

theorem microOwSelect_writeMicro (j : Nat) {s : State} (hl : s.line = .released) :
    microOwSelect (writeMicro j) s = owSelectSlot j s := by
  cases j with
  | zero => exact afterRelease_of_released hl _
  | succ j => rfl

theorem runMicro_owSelect {s : State} (hl : s.line = .released) :
    runMicro microOwSelect 72 (accept .owSelect s) = complete (wroteSlots (selectBit s.rom) 72 s) := by
  have hslot (j : Nat) : microOwSelect (writeMicro j) (writeTrace .owSelect (selectBit s.rom) s j) =
      owSelectSlot j (writeTrace .owSelect (selectBit s.rom) s j) := microOwSelect_writeMicro j hl
  have hfirst : runMicro microOwSelect 71 (accept .owSelect s) = writeTrace .owSelect (selectBit s.rom) s 71 :=
    runMicro_writeSlots fun j hj => (hslot j).trans (if_pos (by omega))
  rw [runMicro_add _ 71 1, hfirst, runMicro_running (i := .owSelect) (k := writeMicro 71) _ _ rfl, hslot]
  exact complete_busWriteBit_writeTrace .owSelect (selectBit s.rom) s 71

theorem byteAt_eq_getD_toList {n : Nat} (x : Vector Byte n) (i : Nat) : byteAt x i = x.toList.getD i 0#8 := by
  simp [byteAt, Vector.getD]

/-- The bits of a select are those of 0x55 and ROM. -/
theorem selectBit_eq (rom : Vector Byte Config.romBytes) (j : Nat) :
    selectBit rom j = ((0x55#8 :: rom.toList).getD (j / 8) 0#8).getLsbD (j % 8) := by
  unfold selectBit
  split
  next hj => simp [show j / 8 = 0 by omega, Nat.mod_eq_of_lt hj, Config.owMatchRom]
  next hj =>
    rw [arrayBit, show j / 8 = (j - 8) / 8 + 1 by omega, show (j - 8) % 8 = j % 8 by omega]
    rw [List.getD_cons_succ, byteAt_eq_getD_toList]

/-- Settles O26: 72 write slots after the prelude, the last of which completes the command. -/
theorem owSelectWritesMatchRomAndTheId : Obligations.OwSelectWritesMatchRomAndTheId := by
  refine fun s hr => ⟨exec_of_busy _ hr, fun hb => ?_⟩
  refine exec_of_prelude (first := owSelectSlot 0) (n := 72) ⟨hr, hb⟩ rfl rfl ?_ rfl
  have hevents : writeEvents (0x55#8 :: s.rom.toList) = (List.range 72).map fun j => .w (selectBit s.rom j) := by
    simp only [writeEvents_eq_map, selectBit_eq, List.length_cons, Vector.length_toList]
    rfl
  rw [hevents, ← afterPrelude_rom]
  exact runMicro_owSelect (afterPrelude_line s)

/-! ### OW_WRITE (R142) -/

theorem microOwWrite_writeMicro (b : Byte) (spu : Bool) (j : Nat) {s : State} (hl : s.line = .released) :
    microOwWrite b spu (writeMicro j) s = owWriteSlot b spu j s := by
  cases j with
  | zero => exact afterRelease_of_released hl _
  | succ j => rfl

/-- After seven slots the last one comes. -/
theorem runMicro_owWrite (b : Byte) (spu : Bool) (n : Nat) {s : State} (hl : s.line = .released) :
    runMicro (microOwWrite b spu) (7 + (n + 1)) (accept (.owWrite b spu) s) =
      runMicro (microOwWrite b spu) n (owWriteSlot b spu 7 (writeTrace (.owWrite b spu) b.getLsbD s 7)) := by
  have hslot (j : Nat) : microOwWrite b spu (writeMicro j) (writeTrace (.owWrite b spu) b.getLsbD s j) =
      owWriteSlot b spu j (writeTrace (.owWrite b spu) b.getLsbD s j) := microOwWrite_writeMicro b spu j hl
  have hfirst : runMicro (microOwWrite b spu) 7 (accept (.owWrite b spu) s) =
      writeTrace (.owWrite b spu) b.getLsbD s 7 :=
    runMicro_writeSlots fun j hj => (hslot j).trans (if_pos (by omega))
  rw [runMicro_add, hfirst, runMicro_running (i := .owWrite b spu) (k := writeMicro 7) _ _ rfl, hslot]

theorem writeEvents_singleton (b : Byte) : writeEvents [b] = (List.range 8).map fun j => .w (b.getLsbD j) :=
  List.append_nil _

/-- Settles O27: eight write slots after the prelude; the last completes the command, or the strong pull-up does. -/
theorem owWriteSendsTheByteAndTakesTheHold : Obligations.OwWriteSendsTheByteAndTakesTheHold := by
  refine fun b s hr => ⟨fun spu => exec_of_busy _ hr, fun hb => ?_, fun hb => ?_⟩
  · refine exec_of_prelude (first := owWriteSlot b false 0) (n := 9) ⟨hr, hb⟩ rfl rfl ?_ rfl
    have hlast := complete_busWriteBit_writeTrace (.owWrite b false) b.getLsbD (afterPrelude s) 7
    refine (runMicro_owWrite b false 1 (afterPrelude_line s)).trans ?_
    rw [writeEvents_singleton]
    exact hlast
  · refine exec_of_prelude (first := owWriteSlot b true 0) (n := 9) ⟨hr, hb⟩ rfl rfl ?_ rfl
    have hlast := busWriteBit_writeTrace (.owWrite b true) b.getLsbD (afterPrelude s) 7
    refine (runMicro_owWrite b true 1 (afterPrelude_line s)).trans ?_
    rw [writeEvents_singleton]
    exact congrArg (fun t => complete (takeSpu t)) hlast

/-! ### OW_READ (R143) -/

/-- The byte with bits 0 to `m - 1` the first answers of byte `i`, the other bits 0. -/
def answerByte (ans : Nat → Bool) (i : Nat) : Nat → Byte
  | 0 => 0#8
  | m + 1 => setBit (answerByte ans i m) m (ans (8 * i + m))

theorem getLsbD_answerByte (ans : Nat → Bool) (i m j : Nat) (hj : j < 8) (hm : j < m) :
    (answerByte ans i m).getLsbD j = ans (8 * i + j) := by
  induction m with
  | zero => omega
  | succ m ih =>
    rw [answerByte, getLsbD_setBit]
    split_ifs with h
    · rw [h.1]
    · exact ih (by omega)

/-- The array with bytes 0 to `i - 1` read. -/
def storeAnswers (ans : Nat → Bool) {n : Nat} (x : Vector Byte n) : Nat → Vector Byte n
  | 0 => x
  | i + 1 => setByte (storeAnswers ans x i) i (answerByte ans i 8)

theorem byteAt_storeAnswers (ans : Nat → Bool) {n : Nat} (x : Vector Byte n) (i j : Nat) :
    byteAt (storeAnswers ans x i) j = if j < i ∧ j < n then answerByte ans j 8 else byteAt x j := by
  induction i with
  | zero => simp [storeAnswers]
  | succ i ih =>
    rw [storeAnswers, byteAt_setByte, ih]
    by_cases hij : i = j
    · subst hij; simp
    · have : j < i + 1 ↔ j < i := by omega
      simp [hij, this]

/-- Where OW_READ stands when read slot `j` comes next. -/
def readMicro (ans : Nat → Bool) : Nat → MicroState
  | 0 => .start
  | j + 1 => .readSlot (j + 1) (answerByte ans ((j + 1) / 8) ((j + 1) % 8))

/-- `s` with `j` read slots done and the bytes 0 to `i - 1` stored. -/
def readSlots (j i : Nat) (s : State) : State :=
  { s.afterAnswers j with
    hist := s.hist ++ (List.range j).map fun m => .r (s.answer m)
    buf := storeAnswers s.answer s.buf i }

theorem busReadBit_readSlots (j i : Nat) (s : State) :
    busReadBit (readSlots j i s) = (s.answer j, readSlots (j + 1) i s) := by
  have hanswer : (readSlots j i s).answer 0 = s.answer j := answer_afterAnswers s j 0
  have hdrawn : (readSlots j i s).afterAnswers 1 = { readSlots (j + 1) i s with hist := (readSlots j i s).hist } := by
    rw [readSlots, readSlots, ← afterAnswers_add]
    rfl
  rw [busReadBit_eq, hanswer, hdrawn]
  simp [logEvent, readSlots, List.range_succ]

theorem readAcc_answerByte (ans : Nat → Bool) (j : Nat) :
    readAcc j (answerByte ans (j / 8) (j % 8)) (ans j) = answerByte ans (j / 8) (j % 8 + 1) := by
  rw [answerByte, readAcc, Nat.div_add_mod]

/-- Read slot `j` of `8n`, the slots before it done: the last one completes the command, any other goes on with the
next. -/
theorem owReadSlot_readSlots {n j : Nat} (hj : j < 8 * n) (s : State) :
    owReadSlot n j (answerByte s.answer (j / 8) (j % 8)) (readSlots j (j / 8) s) =
      if j + 1 < 8 * n then goTo (.owRead n) (readMicro s.answer (j + 1)) (readSlots (j + 1) ((j + 1) / 8) s)
      else complete (readSlots (j + 1) ((j + 1) / 8) s) := by
  simp only [owReadSlot, busReadBit_readSlots, readAcc_answerByte, readMicro]
  by_cases hlast : j % 8 = 7
  · rw [if_pos hlast, hlast, show (j + 1) / 8 = j / 8 + 1 by omega, show (j + 1) % 8 = 0 by omega]
    rfl
  · rw [if_neg hlast, if_pos (by omega), show (j + 1) / 8 = j / 8 by omega, show (j + 1) % 8 = j % 8 + 1 by omega]

/-- OW_READ, accepted in `s`, when read slot `j` comes next. -/
def readTrace (n : Nat) (s : State) (j : Nat) : State :=
  goTo (.owRead n) (readMicro s.answer j) (readSlots j (j / 8) (accept (.owRead n) s))

theorem readTrace_zero (n : Nat) (s : State) : readTrace n s 0 = accept (.owRead n) s := by
  simp [readTrace, readSlots, readMicro, storeAnswers, goTo, accept]

theorem microOwRead_readTrace {n j : Nat} {s : State} (hl : s.line = .released) (hj : j < 8 * n) :
    microOwRead n (readMicro s.answer j) (readTrace n s j) =
      if j + 1 < 8 * n then readTrace n s (j + 1) else complete (readSlots (j + 1) ((j + 1) / 8) s) := by
  have hslot : microOwRead n (readMicro s.answer j) (readTrace n s j) =
      owReadSlot n j (answerByte s.answer (j / 8) (j % 8)) (readTrace n s j) := by
    cases j with
    | zero => exact afterRelease_of_released (s := readTrace n s 0) hl _
    | succ j => rfl
  have hseq : owReadSlot n j (answerByte s.answer (j / 8) (j % 8)) (readTrace n s j) =
      owReadSlot n j (answerByte s.answer (j / 8) (j % 8)) (readSlots j (j / 8) (accept (.owRead n) s)) := by
    simp only [owReadSlot, busReadBit_eq]
    rfl
  exact (hslot.trans hseq).trans (owReadSlot_readSlots hj (accept (.owRead n) s))

theorem runMicro_owRead {n : Nat} (hn : 1 ≤ n) {s : State} (hl : s.line = .released) :
    runMicro (microOwRead n) (8 * n) (accept (.owRead n) s) = complete (readSlots (8 * n) n s) := by
  obtain ⟨m, hm⟩ : ∃ m, 8 * n = m + 1 := ⟨8 * n - 1, by omega⟩
  have hfirst : runMicro (microOwRead n) m (accept (.owRead n) s) = readTrace n s m := by
    rw [← readTrace_zero]
    exact runMicro_trace (k := readMicro s.answer) (fun _ => rfl) fun j hj =>
      (microOwRead_readTrace hl (by omega)).trans (if_pos (by omega))
  rw [hm, runMicro_add, hfirst, runMicro_running (i := .owRead n) (k := readMicro s.answer m) _ _ rfl,
    microOwRead_readTrace hl (by omega), if_neg (by omega), show (m + 1) / 8 = n by omega]
  rfl

/-- Settles O28: `8n` read slots after the prelude, every eighth of which stores the byte of the last eight answers. -/
theorem owReadStoresTheAnswers : Obligations.OwReadStoresTheAnswers := by
  refine fun n s hr => ⟨exec_of_busy _ hr, fun hb hn hn' => ?_⟩
  refine ⟨storeAnswers s.answer s.buf n, ?_, fun i j hi hj => ?_, fun i hi => ?_⟩
  · refine exec_of_prelude (first := owReadSlot n 0 0#8) ⟨hr, hb⟩ rfl rfl ?_ rfl
    refine (runMicro_owRead hn (afterPrelude_line s)).trans ?_
    have hanswer : (afterPrelude s).answer = s.answer := funext (afterPrelude_answer s)
    rw [readSlots, hanswer, afterPrelude_buf]
    rfl
  · rw [byteAt_storeAnswers, if_pos ⟨hi, hi.trans_le hn'⟩, getLsbD_answerByte _ _ _ _ hj hj]
  · rw [byteAt_storeAnswers, if_neg (by omega)]

end Sys2Proof.Machine
end

section
/-! The ROM search's commands (42_search.md): SRCH_RESET (R167), who writes the search state (R161), and SRCH_NEXT as
its pseudocode (R166), position by position. -/

namespace Sys2Proof.Machine

/-! ### SRCH_RESET (R167) -/

/-- Settles O34: the command is one micro-operation. -/
theorem srchResetMakesTheSearchFresh : Obligations.SrchResetMakesTheSearchFresh := fun _ hr =>
  ⟨exec_of_busy _ hr, fun hb => exec_of_complete_at_once ⟨hr, hb⟩ rfl⟩

/-! ### Who writes the search state (R161, 10_state.md R33, R34) -/

/-- The search state is the same in `s` and `t`. -/
def SameSearch (s t : State) : Prop :=
  t.lastDiscrepancy = s.lastDiscrepancy ∧ t.lastDevice = s.lastDevice ∧ t.srom = s.srom

theorem SameSearch.refl (s : State) : SameSearch s s := ⟨rfl, rfl, rfl⟩

theorem SameSearch.trans {s t u : State} (h : SameSearch s t) (h' : SameSearch t u) : SameSearch s u := by
  obtain ⟨hdiscrepancy, hdevice, hsrom⟩ := h
  obtain ⟨hdiscrepancy', hdevice', hsrom'⟩ := h'
  exact ⟨hdiscrepancy'.trans hdiscrepancy, hdevice'.trans hdevice, hsrom'.trans hsrom⟩

theorem raiseError_sameSearch (code : ErrorCode) (s : State) : SameSearch s (raiseError code s) := by
  rw [raiseError_eq]
  exact ⟨rfl, rfl, rfl⟩

theorem WriteEffect.sameSearch {v : Word} {s t : State} (h : WriteEffect v s t) : SameSearch s t := by
  cases h with
  | error code => exact raiseError_sameSearch code s
  | delivery => rcases deliver_cases (v.extractLsb' 0 16) s with ⟨-, -, h⟩ | ⟨-, h⟩ <;> rw [h] <;> exact .refl s
  | _ => exact .refl s

theorem readOffset_sameSearch (off : Nat) (width : AccessWidth) (s : State) :
    SameSearch s (readOffset off width s).2 := by
  rcases readOffset_cases off width s with ⟨-, h⟩ | ⟨-, h⟩ | ⟨-, h⟩ <;> rw [h]
  · exact .refl s
  · exact .refl s
  · exact raiseError_sameSearch _ s

theorem ntpTimerStep_sameSearch (s : State) : SameSearch s (ntpTimerStep s) := by
  rcases ntpTimerStep_cases s with ⟨-, -, h⟩ | ⟨-, h⟩ <;> rw [h] <;> exact .refl s

section OtherCommands

variable {i : Instr} (hnext : i ≠ .srchNext) (hreset : i ≠ .srchReset)
include hnext hreset

theorem runMicro_sameSearch (n : Nat) (s : State) : SameSearch s (runMicro (microOf i) n (accept i s)) :=
  runMicro_induction (P := SameSearch s) (fun t _ k _ h => h.trans (microOf_search i k t hnext hreset)) n (.refl s)

theorem exec_sameSearch {s t : State} (h : exec i s = .next t) : SameSearch s t := by
  rw [exec_eq] at h
  rcases issueAndRun_cases i (maxSteps i) (microOf i) s with ⟨-, hi⟩ | ⟨-, -, hi⟩ | ⟨-, -, hi⟩ <;>
    cases hi.symm.trans h
  · exact raiseError_sameSearch _ s
  · exact runMicro_sameSearch hnext hreset _ s

theorem sequencerStep_sameSearch {k : MicroState} {s : State} (hq : s.seq = .running i k) :
    SameSearch s (sequencerStep s) := by
  rcases sequencerStep_cases s with ⟨-, h⟩ | ⟨-, -, h⟩ | ⟨i', k', -, hq', h⟩ <;> rw [h]
  · exact .refl s
  · exact .refl s
  · cases hq.symm.trans hq'
    exact microOf_search i k s hnext hreset

end OtherCommands

/-- Settles O35: each other command's micro-operations, each write effect, each read and each tick leaves it alone. -/
theorem searchStateIsOwnedByTheSearch : Obligations.SearchStateIsOwnedByTheSearch :=
  ⟨fun _ _ _ hnext hreset => exec_sameSearch hnext hreset,
    fun _ _ _ hnext hreset => sequencerStep_sameSearch hnext hreset,
    fun off width v s => (writeOffset_effect off width v s).sameSearch, readOffset_sameSearch, ntpTimerStep_sameSearch⟩

/-! ### The end of a search (R165, R166) -/

/-- `None`, or an address with a family code. -/
theorem searchOutcome_cases (ok : Bool) (s : State) :
    searchOutcome ok s = complete (searchNone s) ∨
      (ok = true ∧ byteAt s.srom 0 ≠ 0x00#8 ∧ searchOutcome ok s = complete (searchFound s)) := by
  unfold searchOutcome
  split_ifs with h
  · exact .inl rfl
  · obtain ⟨hok, hfamily⟩ := not_or.mp h
    exact .inr ⟨by simpa using hok, hfamily, rfl⟩

@[simp] theorem searchOutcome_seq (ok : Bool) (s : State) : (searchOutcome ok s).seq = .idle := by
  unfold searchOutcome; split <;> rfl

/-! ### A position (R163, R164) -/

theorem busReadBit_goTo (i : Instr) (k : MicroState) (s : State) :
    busReadBit (goTo i k s) = (s.answer 0, goTo i k (busReadBit s).2) := by
  simp only [busReadBit_eq]
  rfl

/-- `s` with the two read slots of a position done. -/
def readTwice (s : State) : State :=
  { s.afterAnswers 2 with hist := s.hist ++ [.r (s.answer 0), .r (s.answer 1)] }

theorem busReadBit_busReadBit (s : State) : busReadBit (busReadBit s).2 = (s.answer 1, readTwice s) := by
  have hsecond : (logEvent (.r (s.answer 0)) (s.afterAnswers 1)).answer 0 = s.answer 1 := answer_afterAnswers s 1 0
  have hdrawn : (s.afterAnswers 1).afterAnswers 1 = s.afterAnswers 2 := afterAnswers_add s 1 1
  simp only [busReadBit_eq, hsecond]
  rw [readTwice, ← hdrawn]
  simp [logEvent, State.afterAnswers]

/-- The bit written at position `n`, `L` being LAST_DISCREPANCY, where the read slots gave `a` and `c`. -/
def directionAt (L n : Nat) (srom : Vector Byte Config.romBytes) (a c : Bool) : Bool :=
  if a ≠ c then a else if n < L then arrayBit srom (n - 1) else decide (n = L)

theorem searchDirection_eq (s : State) (n : Nat) (a c : Bool) :
    searchDirection s n a c = directionAt s.lastDiscrepancy n s.srom a c := (ite_not _ _ _).symm

theorem lastZeroAfter_eq (s : State) (n lastZero : Nat) (a c : Bool) :
    lastZeroAfter s n lastZero a c =
      if a = c ∧ directionAt s.lastDiscrepancy n s.srom a c = false then n else lastZero := by
  rw [← searchDirection_eq, lastZeroAfter, searchDirection]
  by_cases h : a = c <;> simp [h]

/-- `s` with position `n` done and `d` written there. -/
def positionDone (n : Nat) (d : Bool) (s : State) : State :=
  { readTwice s with
    hist := (readTwice s).hist ++ [.w d]
    srom := setArrayBit s.srom (n - 1) d }

/-- SRCH_NEXT when position `n` comes next, and past position 64 its end. -/
def atPosition (n lastZero : Nat) (s : State) : State :=
  if n ≤ 64 then goTo .srchNext (.searchFirst n lastZero) s
  else searchOutcome true (recordDiscrepancy lastZero s)

/-- The second read slot of position `n`, the first having sampled `a`: no device answers, or the write slot comes. -/
theorem searchReadSecond_goTo (n lastZero : Nat) (a : Bool) (i : Instr) (k : MicroState) (s : State) :
    searchReadSecond n lastZero a (goTo i k s) =
      if a = true ∧ s.answer 0 = true then searchOutcome false (busReadBit s).2
      else goTo .srchNext
        (.searchWrite n (lastZeroAfter s n lastZero a (s.answer 0)) (searchDirection s n a (s.answer 0)))
        (busReadBit s).2 := by
  rw [searchReadSecond, busReadBit_goTo]
  rfl

/-- The two read slots of a position. -/
theorem runMicro_reads {n : Nat} (hn : n ≤ 64) (lastZero m : Nat) (s : State) :
    runMicro microSrchNext (m + 2) (atPosition n lastZero s) = runMicro microSrchNext m
      (if s.answer 0 = true ∧ s.answer 1 = true then searchOutcome false (readTwice s)
      else goTo .srchNext
        (.searchWrite n (lastZeroAfter s n lastZero (s.answer 0) (s.answer 1))
          (searchDirection s n (s.answer 0) (s.answer 1)))
        (readTwice s)) := by
  have hfirst : searchReadFirst n lastZero (goTo .srchNext (.searchFirst n lastZero) s) =
      goTo .srchNext (.searchSecond n lastZero (s.answer 0)) (busReadBit s).2 := by
    rw [searchReadFirst, busReadBit_goTo]
    rfl
  have hanswer : (busReadBit s).2.answer 0 = s.answer 1 := by
    rw [busReadBit_eq]
    exact answer_afterAnswers s 1 0
  have hsecond : searchReadSecond n lastZero (s.answer 0)
      (goTo .srchNext (.searchSecond n lastZero (s.answer 0)) (busReadBit s).2) = _ :=
    searchReadSecond_goTo n lastZero (s.answer 0) _ _ (busReadBit s).2
  rw [atPosition, if_pos hn, runMicro_running (i := .srchNext) (k := .searchFirst n lastZero) _ _ rfl, microSrchNext,
    hfirst, runMicro_running (i := .srchNext) (k := .searchSecond n lastZero (s.answer 0)) _ _ rfl, microSrchNext,
    hsecond, hanswer, busReadBit_busReadBit]
  have hzero : lastZeroAfter (busReadBit s).2 = lastZeroAfter s := by
    rw [busReadBit_eq]
    rfl
  have hdirection : searchDirection (busReadBit s).2 = searchDirection s := by
    rw [busReadBit_eq]
    rfl
  rw [hzero, hdirection]

/-- One position of the search: no device answers, or the direction is written and the next position comes. -/
theorem runMicro_position {n : Nat} (hn : n ≤ 64) (lastZero : Nat) (s : State) :
    runMicro microSrchNext 3 (atPosition n lastZero s) =
      if s.answer 0 = true ∧ s.answer 1 = true then searchOutcome false (readTwice s)
      else atPosition (n + 1) (lastZeroAfter s n lastZero (s.answer 0) (s.answer 1))
        (positionDone n (searchDirection s n (s.answer 0) (s.answer 1)) s) := by
  rw [runMicro_reads hn lastZero 1]
  split
  · exact runMicro_idle _ _ (searchOutcome_seq _ _)
  · rfl

/-! ### The loop (R166) -/

/-- `s` with the loop's run done. -/
def afterLoop (run : SearchRun) (s : State) : State :=
  { s.afterAnswers run.drawn with
    hist := s.hist ++ run.events
    srom := run.srom
    lastDiscrepancy := if run.ok then run.lastZero else s.lastDiscrepancy
    lastDevice := run.ok && decide (run.lastZero = 0) }

/-- The loop with one more position before the positions of `rest`. -/
def SearchRun.cons (a c d : Bool) (rest : SearchRun) : SearchRun :=
  ⟨rest.ok, rest.lastZero, rest.srom, [.r a, .r c] ++ [.w d] ++ rest.events, 2 + rest.drawn⟩

/-- One position of the loop: no device answers, or a direction is written and the other positions follow. -/
theorem searchLoop_succ (L : Nat) (ans ans' : Nat → Bool) (todo n lastZero : Nat)
    (srom : Vector Byte Config.romBytes) :
    searchLoop L ans ans' (todo + 1) n lastZero srom =
      if ans n = true ∧ ans' n = true then ⟨false, lastZero, srom, [.r (ans n), .r (ans' n)], 2⟩
      else .cons (ans n) (ans' n) (directionAt L n srom (ans n) (ans' n))
        (searchLoop L ans ans' todo (n + 1)
          (if ans n = ans' n ∧ directionAt L n srom (ans n) (ans' n) = false then n else lastZero)
          (setArrayBit srom (n - 1) (directionAt L n srom (ans n) (ans' n)))) := rfl

theorem afterLoop_cons (d : Bool) (n : Nat) (rest : SearchRun) (s : State) :
    afterLoop (.cons (s.answer 0) (s.answer 1) d rest) s = afterLoop rest (positionDone n d s) := by
  simp only [afterLoop, SearchRun.cons, ← afterAnswers_add, ← List.append_assoc]
  rfl

theorem answer_positionDone (n : Nat) (d : Bool) (s : State) (j : Nat) :
    (positionDone n d s).answer j = s.answer (2 + j) := answer_afterAnswers s 2 j

/-- The steps of the positions to come are the loop's run, where the answers to come are the loop's. -/
theorem runMicro_searchLoop {ans : Nat → Bool} {todo n lastZero : Nat} {s : State} (hn : n + todo = 65) (h1 : 1 ≤ n)
    (hd : s.lastDevice = false) (hans : ∀ j, s.answer j = ans (2 * n - 1 + j)) {run : SearchRun}
    (hrun : searchLoop s.lastDiscrepancy (fun m => ans (2 * m - 1)) (fun m => ans (2 * m)) todo n lastZero s.srom =
      run) :
    runMicro microSrchNext (3 * todo) (atPosition n lastZero s) = searchOutcome run.ok (afterLoop run s) := by
  induction todo generalizing n lastZero s run with
  | zero =>
    have hlast : atPosition n lastZero s = searchOutcome true (recordDiscrepancy lastZero s) := if_neg (by omega)
    subst hrun
    rw [Nat.mul_zero, runMicro, hlast, recordDiscrepancy, hd]
    simp only [searchLoop, afterLoop, afterAnswers_zero, List.append_nil]
    by_cases hz : lastZero = 0 <;> simp [hz]
  | succ todo ih =>
    have ha : s.answer 0 = ans (2 * n - 1) := hans 0
    have hc : s.answer 1 = ans (2 * n) := (hans 1).trans (congrArg ans (by omega))
    rw [searchLoop_succ, ← ha, ← hc, ← lastZeroAfter_eq, ← searchDirection_eq] at hrun
    rw [Nat.mul_succ, Nat.add_comm, runMicro_add, runMicro_position (by omega)]
    by_cases hnone : s.answer 0 = true ∧ s.answer 1 = true
    · rw [if_pos hnone] at hrun ⊢
      subst hrun
      exact runMicro_idle _ _ (searchOutcome_seq _ _)
    · rw [if_neg hnone] at hrun ⊢
      subst hrun
      have hanswers (d : Bool) (j : Nat) : (positionDone n d s).answer j = ans (2 * (n + 1) - 1 + j) := by
        rw [answer_positionDone, hans, show 2 * n - 1 + (2 + j) = 2 * (n + 1) - 1 + j by omega]
      have hrest := ih (n := n + 1) (lastZero := lastZeroAfter s n lastZero (s.answer 0) (s.answer 1))
        (s := positionDone n (searchDirection s n (s.answer 0) (s.answer 1)) s)
        (by omega) (by omega) hd (hanswers _) rfl
      rw [afterLoop_cons _ n]
      exact hrest

/-! ### The search byte (R162) -/

/-- Where SRCH_NEXT stands when `j` bits of the search byte are written. -/
def searchByteMicro (j : Nat) : MicroState := if j < 8 then .searchByte j else .searchFirst 1 0

theorem searchByteSlot_goTo (j : Nat) (k : MicroState) (s : State) :
    searchByteSlot j (goTo .srchNext k s) =
      goTo .srchNext (searchByteMicro (j + 1)) (busWriteBit (Config.owSearchRom.getLsbD j) s) := by
  unfold searchByteSlot searchByteMicro
  split
  · rfl
  · rfl

/-- The eight write slots of the search byte lead to position 1. -/
theorem runMicro_searchByte (s : State) :
    runMicro microSrchNext 8 (goTo .srchNext (.searchByte 0) s) =
      atPosition 1 0 { s with hist := s.hist ++ writeEvents [0xF0#8] } := by
  have htrace := runMicro_trace (micro := microSrchNext) (i := .srchNext) (k := searchByteMicro) (m := 8)
    (trace := fun j => goTo .srchNext (searchByteMicro j) (wroteSlots Config.owSearchRom.getLsbD j s)) (fun _ => rfl)
    fun j (hj : j < 8) => by
      have hmicro : searchByteMicro j = .searchByte j := if_pos hj
      rw [hmicro, microSrchNext, searchByteSlot_goTo, busWriteBit_wroteSlots]
  have hstart : wroteSlots Config.owSearchRom.getLsbD 0 s = s := by simp [wroteSlots]
  rw [hstart] at htrace
  rw [writeEvents_singleton]
  exact htrace

/-! ### The whole command (R166) -/

/-- The pulse: with presence the search byte comes next, without it the result is `None`. -/
theorem searchPulse_accept (s : State) :
    searchPulse (accept .srchNext s) =
      if s.answer 0 = true then
        goTo .srchNext (.searchByte 0)
          { s.afterAnswers 1 with busy := true, presence := true, hist := s.hist ++ [.reset true] }
      else searchOutcome false { s.afterAnswers 1 with presence := false, hist := s.hist ++ [.reset false] } := by
  have hanswer : (accept .srchNext s).answer 0 = s.answer 0 := rfl
  rw [searchPulse, busReset_eq, hanswer]
  cases s.answer 0 <;> rfl

@[simp] theorem afterPrelude_lastDiscrepancy (s : State) : (afterPrelude s).lastDiscrepancy = s.lastDiscrepancy := by
  unfold afterPrelude; split <;> rfl

@[simp] theorem afterPrelude_lastDevice (s : State) : (afterPrelude s).lastDevice = s.lastDevice := by
  unfold afterPrelude; split <;> rfl

@[simp] theorem afterPrelude_inReset (s : State) : (afterPrelude s).inReset = s.inReset := by
  unfold afterPrelude; split <;> rfl

/-- `s` with the pulse, answered with presence, and the search byte sent. -/
def afterSearchByte (s : State) : State :=
  { s.afterAnswers 1 with
    presence := true
    hist := s.hist ++ [.reset true] ++ writeEvents [0xF0#8] }

section Pulse

variable {s : State} (hd : s.lastDevice = false)
include hd

theorem searchEffect_of_absence (h0 : s.answer 0 = false) :
    searchEffect s = searchOutcome false
      { (afterPrelude s).afterAnswers 1 with presence := false, hist := (afterPrelude s).hist ++ [.reset false] } := by
  simp [searchEffect, hd, h0]

theorem searchEffect_of_presence (h0 : s.answer 0 = true) :
    searchEffect s = searchOutcome (searchRun s).ok (afterLoop (searchRun s) (afterSearchByte (afterPrelude s))) := by
  have hL := afterPrelude_lastDiscrepancy s
  have hdrawn := afterAnswers_add (afterPrelude s) 1 (searchRun s).drawn
  simp only [searchEffect, hd, h0, ← hdrawn, ← hL, Bool.false_eq_true, Bool.true_eq_false, if_false]
  rfl

theorem microSrchNext_start :
    microSrchNext .start (accept .srchNext s) = afterRelease searchPulse (accept .srchNext s) := by
  have hstart : searchStart (accept .srchNext s) = afterRelease searchPulse (accept .srchNext s) := by
    simp [searchStart, hd]
  exact hstart

theorem runMicro_srchNext_released (hl : s.line = .released) :
    runMicro microSrchNext 201 (accept .srchNext s) = searchEffect s := by
  have hstart : microSrchNext .start (accept .srchNext s) = searchPulse (accept .srchNext s) :=
    (microSrchNext_start hd).trans (afterRelease_of_released (s := accept .srchNext s) hl _)
  rw [runMicro_running (i := .srchNext) (k := .start) _ _ rfl, hstart, searchPulse_accept]
  cases h0 : s.answer 0 with
  | false =>
    rw [searchEffect_of_absence hd h0, afterPrelude_of_released hl, if_neg Bool.false_ne_true]
    exact runMicro_idle _ _ (searchOutcome_seq _ _)
  | true =>
    have hloop := runMicro_searchLoop (ans := s.answer) (todo := 64) (n := 1) (lastZero := 0)
      (s := { afterSearchByte s with busy := true }) rfl le_rfl hd (fun j => answer_afterAnswers s 1 j) rfl
    rw [searchEffect_of_presence hd h0, afterPrelude_of_released hl, if_pos rfl, runMicro_add _ 8 192,
      runMicro_searchByte]
    exact hloop

end Pulse

theorem searchEffect_afterPrelude {s : State} (hd : s.lastDevice = false) :
    searchEffect (afterPrelude s) = searchEffect s := by
  cases hl : s.line with
  | released => rw [afterPrelude_of_released hl]
  | spu =>
    have htwice : afterPrelude (releaseSpu s) = releaseSpu s := afterPrelude_of_released rfl
    rw [afterPrelude_of_spu hl, searchEffect, searchEffect, htwice, afterPrelude_of_spu hl]
    simp only [releaseSpu_lastDevice, hd, Bool.false_eq_true, if_false]
    rfl

@[simp] theorem searchEffect_seq (s : State) : (searchEffect s).seq = .idle := by
  unfold searchEffect
  split_ifs <;> exact searchOutcome_seq _ _

/-- The whole run: `None` at once after the last device of a pass, else the prelude's step where there is one and the
steps from the pulse on. -/
theorem exec_srchNext {s : State} (h : Ready s) : exec .srchNext s = .next (searchEffect s) := by
  cases hd : s.lastDevice with
  | true =>
    have hnone : microOf .srchNext .start (accept .srchNext s) = searchEffect s := by
      rw [searchEffect, if_pos hd]
      exact searchStart_of_lastDevice (s := accept .srchNext s) hd
    have hidle : (microOf .srchNext .start (accept .srchNext s)).seq = .idle := by rw [hnone, searchEffect_seq]
    rw [exec_of_complete_at_once h hidle, hnone]
  | false =>
    rw [exec_of_ready .srchNext h]
    refine congrArg _ ?_
    cases hl : s.line with
    | released =>
      rw [maxSteps, runMicro_add _ 201 1, microOf, runMicro_srchNext_released hd hl,
        runMicro_idle _ _ (searchEffect_seq s)]
    | spu =>
      have hrelease : microSrchNext .start (accept .srchNext s) = accept .srchNext (afterPrelude s) := by
        rw [microSrchNext_start hd, afterPrelude_of_spu hl]
        exact if_pos hl
      have hd' : (afterPrelude s).lastDevice = false := (afterPrelude_lastDevice s).trans hd
      rw [maxSteps, microOf, runMicro_running (i := .srchNext) (k := .start) _ _ rfl, hrelease,
        runMicro_srchNext_released hd' (afterPrelude_line s), searchEffect_afterPrelude hd]

/-- Settles O32: the prelude, the pulse, the search byte and the positions, one lemma each, are what the pseudocode
says. -/
theorem srchNextFollowsItsPseudocode : Obligations.SrchNextFollowsItsPseudocode :=
  fun _ hr => ⟨exec_of_busy _ hr, fun hb => exec_srchNext ⟨hr, hb⟩⟩

/-! ### What a SRCH_NEXT leaves alone (R160) -/

/-- The CRC, ERROR, BUF and NTP registers and the tick divider are the same in `s` and `t`. -/
def SameButSearch (s t : State) : Prop :=
  t.crcResult = s.crcResult ∧ t.crcMatch = s.crcMatch ∧ t.errCode = s.errCode ∧ t.errMore = s.errMore ∧
    t.buf = s.buf ∧ t.rx = s.rx ∧ t.ntpState = s.ntpState ∧ t.ntpSeconds = s.ntpSeconds ∧ t.ntpRaw = s.ntpRaw ∧
    t.ntpElapsed = s.ntpElapsed ∧ t.ntpRxLen = s.ntpRxLen ∧ t.tickDiv = s.tickDiv

theorem SameButSearch.refl (s : State) : SameButSearch s s := by simp [SameButSearch]

theorem afterPrelude_sameButSearch (s : State) : SameButSearch s (afterPrelude s) := by
  unfold afterPrelude
  split <;> exact .refl s

theorem SameButSearch.outcome {s t : State} (h : SameButSearch s t) (ok : Bool) :
    SameButSearch s (searchOutcome ok t) := by
  rcases searchOutcome_cases ok t with ht | ⟨-, -, ht⟩ <;> rw [ht] <;> exact h

/-- SRCH_NEXT ends as R166 says, from a state in which it has written neither ROM nor another unit's registers. -/
theorem searchEffect_eq_searchOutcome (s : State) :
    ∃ ok u, searchEffect s = searchOutcome ok u ∧ u.rom = s.rom ∧ u.inReset = s.inReset ∧ SameButSearch s u := by
  have hrom := afterPrelude_rom s
  have hreset := afterPrelude_inReset s
  have hsame := afterPrelude_sameButSearch s
  unfold searchEffect
  split
  · exact ⟨_, _, rfl, rfl, rfl, .refl s⟩
  · split
    · exact ⟨_, _, rfl, hrom, hreset, hsame⟩
    · exact ⟨_, _, rfl, hrom, hreset, hsame⟩

theorem searchEffect_ready {s : State} (h : Ready s) : Ready (searchEffect s) := by
  obtain ⟨ok, u, heffect, -, hreset, -⟩ := searchEffect_eq_searchOutcome s
  rw [heffect]
  rcases searchOutcome_cases ok u with hu | ⟨-, -, hu⟩ <;> rw [hu] <;> exact ⟨hreset.trans h.1, rfl⟩

/-- Settles O33: the outcome is one of two, and neither it nor what came before touches another unit. -/
theorem srchNextEndsWithAddressOrNone : Obligations.SrchNextEndsWithAddressOrNone := by
  intro s h
  obtain ⟨ok, u, heffect, hrom, -, hsame⟩ := searchEffect_eq_searchOutcome s
  have hframe : SameButSearch s (searchEffect s) := heffect ▸ hsame.outcome ok
  refine ⟨searchEffect s, exec_srchNext h, (searchEffect_ready h).2, searchEffect_seq s, ?_, hframe⟩
  rw [heffect]
  rcases searchOutcome_cases ok u with hu | ⟨-, hfamily, hu⟩ <;> rw [hu]
  · exact .inr ⟨rfl, rfl, rfl, hrom⟩
  · exact .inl ⟨rfl, rfl, hfamily⟩

end Sys2Proof.Machine
end

section
/-! The ROM search on the reference population (41_onewire.md R133). The ids' order on the bus (42_search.md R172) is a
linear order. The loop of R166 finds a device and records the last branch it left for later, so the device is the next
one in that order, and the searches of a pass find the devices one after the other (R171). -/

namespace Sys2Proof.Machine

open ReferenceBus

/-! ### The order of the ids (R172) -/

/-- The bits of an id in bus order, compared at the first one that differs. -/
def busKey (d : RomId) : Lex (Fin 64 → Bool) := toLex fun i => arrayBit d i

theorem idBefore_iff (d e : RomId) : idBefore d e ↔ busKey d < busKey e := by
  constructor
  · rintro ⟨m, hm, hsame, hd, he⟩
    refine ⟨⟨m, hm⟩, fun j hj => hsame j hj, ?_⟩
    show arrayBit d m < arrayBit e m
    simp [hd, he]
  · rintro ⟨m, hsame, hlt⟩
    obtain ⟨hd, he⟩ := Bool.lt_iff.mp hlt
    exact ⟨m, m.isLt, fun j hj => hsame ⟨j, hj.trans m.isLt⟩ hj, hd, he⟩

theorem busKey_injective : Function.Injective busKey := fun _ _ h =>
  eq_of_arrayBit fun j hj => congrFun h ⟨j, hj⟩

/-! ### Branches -/

/-- The bits before bit `m` are the same. -/
def AgreeBelow (m : Nat) (d e : RomId) : Prop := ∀ j, j < m → arrayBit d j = arrayBit e j

/-- Some device first differs from `e` at bit `m`. -/
def Branch (devices : List RomId) (e : RomId) (m : Nat) : Prop :=
  ∃ d ∈ devices, AgreeBelow m d e ∧ arrayBit d m ≠ arrayBit e m

/-- Some device comes after `e`, first differing from it at bit `m`. -/
def BranchUp (devices : List RomId) (e : RomId) (m : Nat) : Prop := arrayBit e m = false ∧ Branch devices e m

/-- `L` is the last position at which a device after `e` branches from it, 0 where none does. -/
def LastBranch (devices : List RomId) (e : RomId) (L : Nat) : Prop :=
  (∀ j < 64, BranchUp devices e j → j + 1 ≤ L) ∧ (L = 0 ∨ ∃ j < 64, BranchUp devices e j ∧ L = j + 1)

theorem AgreeBelow.symm {m : Nat} {d e : RomId} (h : AgreeBelow m d e) : AgreeBelow m e d := fun j hj => (h j hj).symm

theorem AgreeBelow.trans {m : Nat} {d e f : RomId} (h : AgreeBelow m d e) (h' : AgreeBelow m e f) : AgreeBelow m d f :=
  fun j hj => (h j hj).trans (h' j hj)

theorem AgreeBelow.mono {m n : Nat} {d e : RomId} (h : AgreeBelow n d e) (hmn : m ≤ n) : AgreeBelow m d e :=
  fun j hj => h j (hj.trans_le hmn)

theorem agreeBelow_succ_iff {m : Nat} {d e : RomId} :
    AgreeBelow (m + 1) d e ↔ AgreeBelow m d e ∧ arrayBit d m = arrayBit e m := Nat.forall_lt_succ_right

/-! ### The wired AND (R133) -/

/-- The answers at a bit: the one value the active devices have there, or 0 twice where they have both. -/
theorem wired_cases {active : List RomId} (hne : active ≠ []) (m : Nat) :
    (∃ b, wiredAnd active m = b ∧ wiredAndNot active m = !b ∧ ∀ x ∈ active, arrayBit x m = b) ∨
      (wiredAnd active m = false ∧ wiredAndNot active m = false ∧ ∀ b, ∃ x ∈ active, arrayBit x m = b) := by
  obtain ⟨x, hx⟩ := List.exists_mem_of_ne_nil active hne
  cases ha : wiredAnd active m with
  | true =>
    have hall : ∀ y ∈ active, arrayBit y m = true := by simpa [wiredAnd] using ha
    refine .inl ⟨true, rfl, ?_, hall⟩
    simpa [wiredAndNot] using ⟨x, hx, hall x hx⟩
  | false =>
    have hzero : ∃ y ∈ active, arrayBit y m = false := by simpa [wiredAnd] using ha
    cases hc : wiredAndNot active m with
    | true => exact .inl ⟨false, rfl, rfl, by simpa [wiredAndNot] using hc⟩
    | false =>
      have hone : ∃ y ∈ active, arrayBit y m = true := by simpa [wiredAndNot] using hc
      exact .inr ⟨rfl, rfl, fun b => by cases b <;> assumption⟩

/-- What the direction at bit `m` is where devices answer: a bit that one of them has, and R164's choice exactly where
they have both. -/
theorem directionAt_wired {active : List RomId} (hne : active ≠ []) (L m : Nat) (path : RomId) {a c : Bool}
    (ha : a = wiredAnd active m) (hc : c = wiredAndNot active m) :
    ¬ (a = true ∧ c = true) ∧ (∃ x ∈ active, arrayBit x m = directionAt L (m + 1) path a c) ∧
      ((∃ x ∈ active, arrayBit x m ≠ directionAt L (m + 1) path a c) ↔ a = c) ∧
      (a = c → directionAt L (m + 1) path a c = if m + 1 < L then arrayBit path m else decide (m + 1 = L)) := by
  subst ha hc
  rcases wired_cases hne m with ⟨b, ha, hc, hall⟩ | ⟨ha, hc, hboth⟩ <;> rw [ha, hc]
  · have hd : directionAt L (m + 1) path b (!b) = b := by simp [directionAt]
    obtain ⟨x, hx⟩ := List.exists_mem_of_ne_nil active hne
    rw [hd]
    refine ⟨by simp, ⟨x, hx, hall x hx⟩, ?_, by simp⟩
    simpa using hall
  · refine ⟨by simp, hboth _, ?_, fun _ => rfl⟩
    obtain ⟨x, hx, hxd⟩ := hboth !(directionAt L (m + 1) path false false)
    simpa using ⟨x, hx, by simp [hxd]⟩

/-! ### Following the events -/

theorem follow_append (devices : List RomId) (p : Phase) (events events' : List BusEvent) :
    follow devices p (events ++ events') = (follow devices p events).bind fun q => follow devices q events' := by
  induction events generalizing p with
  | nil => rfl
  | cons e events ih =>
    simp only [List.cons_append, follow]
    cases next devices p e with
    | none => rfl
    | some q => exact ih q

theorem follow_searchByte (devices : List RomId) (events : List BusEvent) :
    follow devices (.commandByte []) (writeEvents [0xF0#8] ++ events) = follow devices (.first 0 devices) events := rfl

/-- The two read slots of a position have the answers of the active devices. -/
theorem follow_reads {devices active : List RomId} {m : Nat} {a c : Bool} {events : List BusEvent}
    (h : (follow devices (.first m active) (.r a :: .r c :: events)).isSome = true) :
    a = wiredAnd active m ∧ c = wiredAndNot active m ∧
      (follow devices (.direction m active) events).isSome = true := by
  simp only [follow, next] at h
  by_cases ha : a = wiredAnd active m
  · by_cases hc : c = wiredAndNot active m
    · exact ⟨ha, hc, by simpa [ha, hc] using h⟩
    · simp [ha, hc] at h
  · simp [ha] at h

/-- The write slot of a position leaves the devices with the bit written active. -/
theorem follow_write (devices active : List RomId) {m : Nat} (hm : m + 1 < 64) (d : Bool) (events : List BusEvent) :
    follow devices (.direction m active) (.w d :: events) =
      follow devices (.first (m + 1) (active.filter fun x => arrayBit x m == d)) events := by
  simp [follow, next, hm]

/-! ### The loop (R163, R164) -/

/-- A run of the loop that starts at bit `m` with SROM `path` and `last_zero` `lastZero` finds a device: below bit `m`
as in `path`, from there on in R164's direction at each branch, with the last branch left for later recorded. -/
structure LoopFinds (devices : List RomId) (L : Nat) (path : RomId) (m lastZero : Nat) (run : SearchRun) : Prop where
  ok : run.ok = true
  mem : run.srom ∈ devices
  agree : AgreeBelow m run.srom path
  direction : ∀ j, m ≤ j → j < 64 → Branch devices run.srom j →
    arrayBit run.srom j = if j + 1 < L then arrayBit path j else decide (j + 1 = L)
  branches_le : ∀ j, m ≤ j → j < 64 → BranchUp devices run.srom j → j + 1 ≤ run.lastZero
  lastZero_cases : run.lastZero = lastZero ∨ ∃ j, m ≤ j ∧ j < 64 ∧ BranchUp devices run.srom j ∧ run.lastZero = j + 1

/-- The active devices after the bits below bit `m` of `path` were written. -/
def ActiveAt (devices : List RomId) (m : Nat) (path : RomId) (active : List RomId) : Prop :=
  active ≠ [] ∧ ∀ x, x ∈ active ↔ x ∈ devices ∧ AgreeBelow m x path

section Loop

variable {devices active : List RomId} {L m lastZero : Nat} {path : RomId}

theorem arrayBit_setArrayBit_path (path : RomId) (m : Nat) (d : Bool) {j : Nat} (hj : j < 64) :
    arrayBit (setArrayBit path m d) j = if m = j then d else arrayBit path j := arrayBit_setArrayBit path d hj

theorem agreeBelow_setArrayBit {x : RomId} {d : Bool} (hm : m < 64) :
    AgreeBelow (m + 1) x (setArrayBit path m d) ↔ AgreeBelow m x path ∧ arrayBit x m = d := by
  rw [agreeBelow_succ_iff, arrayBit_setArrayBit_path path m d hm, if_pos rfl]
  refine and_congr_left' (forall₂_congr fun j hj => ?_)
  rw [arrayBit_setArrayBit_path path m d (by omega), if_neg (by omega)]

/-- Writing a bit that an active device has leaves those that have it active. -/
theorem ActiveAt.write (h : ActiveAt devices m path active) (hm : m < 64) {d : Bool}
    (hd : ∃ x ∈ active, arrayBit x m = d) :
    ActiveAt devices (m + 1) (setArrayBit path m d) (active.filter fun x => arrayBit x m == d) := by
  obtain ⟨x, hx, hxd⟩ := hd
  refine ⟨List.ne_nil_of_mem (List.mem_filter.mpr ⟨hx, by simpa using hxd⟩), fun y => ?_⟩
  rw [agreeBelow_setArrayBit hm, List.mem_filter, h.2, beq_iff_eq, and_assoc]

/-- All 64 bits written, the device is found. -/
theorem loopFinds_end (h : ActiveAt devices 64 path active) :
    LoopFinds devices L path 64 lastZero ⟨true, lastZero, path, [], 0⟩ where
  ok := rfl
  mem := by
    obtain ⟨x, hx⟩ := List.exists_mem_of_ne_nil active h.1
    obtain ⟨hx, hsame⟩ := (h.2 x).mp hx
    have hpath : x = path := eq_of_arrayBit hsame
    exact hpath ▸ hx
  agree _ _ := rfl
  direction j hj hj' := by omega
  branches_le j hj hj' := by omega
  lastZero_cases := .inl rfl

theorem ActiveAt.branch_iff (h : ActiveAt devices m path active) {e : RomId} (he : AgreeBelow m e path) :
    Branch devices e m ↔ ∃ x ∈ active, arrayBit x m ≠ arrayBit e m := by
  refine exists_congr fun x => ?_
  rw [h.2, and_assoc]
  exact and_congr_right' (and_congr_left' ⟨fun hx => hx.trans he, fun hx => hx.trans he.symm⟩)

/-- One more bit: `d` is R164's direction if some active device has the other value, and then, if it is 0, `last_zero`
becomes this position. -/
theorem LoopFinds.cons {a c d : Bool} {lastZero' : Nat} {rest : SearchRun} (hm : m < 64)
    (hactive : ActiveAt devices m path active)
    (hdirection : (∃ x ∈ active, arrayBit x m ≠ d) → d = if m + 1 < L then arrayBit path m else decide (m + 1 = L))
    (hzero : lastZero' = m + 1 ∧ d = false ∧ (∃ x ∈ active, arrayBit x m ≠ d) ∨
      lastZero' = lastZero ∧ ¬ (d = false ∧ ∃ x ∈ active, arrayBit x m ≠ d))
    (h : LoopFinds devices L (setArrayBit path m d) (m + 1) lastZero' rest) :
    LoopFinds devices L path m lastZero (.cons a c d rest) := by
  obtain ⟨hok, hmem, hagree, hdirections, hle, hcases⟩ := h
  obtain ⟨hpath, hbit⟩ := (agreeBelow_setArrayBit hm).mp hagree
  have hbranch := hactive.branch_iff hpath
  rw [hbit] at hbranch
  have hup : BranchUp devices rest.srom m ↔ d = false ∧ ∃ x ∈ active, arrayBit x m ≠ d := by
    rw [BranchUp, hbranch, hbit]
  refine ⟨hok, hmem, hpath, fun j hj hj' hb => ?_, fun j hj hj' hb => ?_, ?_⟩
  · rcases hj.eq_or_lt with rfl | hlt
    · exact hbit.trans (hdirection (hbranch.mp hb))
    · have := hdirections j hlt hj' hb
      rwa [arrayBit_setArrayBit_path path m d hj', if_neg hlt.ne] at this
  · rcases hj.eq_or_lt with rfl | hlt
    · have hnext : lastZero' = m + 1 := by
        rcases hzero with ⟨hz, -⟩ | ⟨-, hno⟩
        · exact hz
        · exact absurd (hup.mp hb) hno
      rcases hcases with hlast | ⟨j, hj, -, -, hlast⟩
      · exact (hlast.trans hnext).ge
      · exact hlast ▸ Nat.le_succ_of_le hj
    · exact hle j hlt hj' hb
  · rcases hcases with hlast | ⟨j, hj, hj', hb, hlast⟩
    · rcases hzero with ⟨hz, hb⟩ | ⟨hz, -⟩
      · exact .inr ⟨m, le_rfl, hm, hup.mpr hb, hlast.trans hz⟩
      · exact .inl (hlast.trans hz)
    · exact .inr ⟨j, Nat.le_of_succ_le hj, hj', hb, hlast⟩

theorem searchLoop_events (ans ans' : Nat → Bool) (todo n : Nat) :
    ∃ events, (searchLoop L ans ans' (todo + 1) n lastZero path).events = .r (ans n) :: .r (ans' n) :: events := by
  rw [searchLoop_succ]
  split <;> exact ⟨_, rfl⟩

/-- The loop, from bit `m` on, where the answers are those of the active devices. -/
theorem searchLoop_finds {ans ans' : Nat → Bool} {todo : Nat} (hm : m + todo = 64)
    (hactive : ActiveAt devices m path active)
    (hbus : m < 64 → (follow devices (.first m active)
      (searchLoop L ans ans' todo (m + 1) lastZero path).events).isSome = true) :
    LoopFinds devices L path m lastZero (searchLoop L ans ans' todo (m + 1) lastZero path) := by
  induction todo generalizing m lastZero path active with
  | zero =>
    obtain rfl : m = 64 := hm
    exact loopFinds_end hactive
  | succ todo ih =>
    have hlt : m < 64 := by omega
    have hsome := hbus hlt
    obtain ⟨events, hevents⟩ := searchLoop_events (L := L) (lastZero := lastZero) (path := path) ans ans' todo (m + 1)
    obtain ⟨ha, hc, -⟩ := follow_reads (hevents ▸ hsome)
    obtain ⟨hanswered, hhas, hother, hchoice⟩ := directionAt_wired hactive.1 L m path ha hc
    rw [searchLoop_succ, if_neg hanswered] at hsome ⊢
    obtain ⟨-, -, hwrite⟩ := follow_reads hsome
    refine .cons hlt hactive (fun h => hchoice (hother.mp h)) ?_
      (ih (by omega) (hactive.write hlt hhas) fun hlt' => ?_)
    · rw [hother]
      split_ifs with h
      · exact .inl ⟨rfl, h.2, h.1⟩
      · exact .inr ⟨rfl, fun h' => h h'.symm⟩
    · rwa [← follow_write devices active hlt']

end Loop

/-! ### The device found is the next one (R171, R172) -/

section Next

variable {devices : List RomId} {L : Nat} {path : RomId} {run : SearchRun}

theorem idBefore_trans {d e f : RomId} (h : idBefore d e) (h' : idBefore e f) : idBefore d f :=
  (idBefore_iff d f).mpr (((idBefore_iff d e).mp h).trans ((idBefore_iff e f).mp h'))

theorem idBefore_asymm {d e : RomId} (h : idBefore d e) : ¬ idBefore e d := fun h' =>
  lt_asymm ((idBefore_iff d e).mp h) ((idBefore_iff e d).mp h')

/-- The devices after `e` are those that branch from it upwards. -/
theorem exists_branchUp_iff {e : RomId} :
    (∃ j < 64, BranchUp devices e j) ↔ ∃ d ∈ devices, idBefore e d := by
  constructor
  · rintro ⟨j, hj, he, d, hd, hsame, hne⟩
    exact ⟨d, hd, j, hj, hsame.symm, he, by simpa [he] using hne⟩
  · rintro ⟨d, hd, j, hj, hsame, he, hdj⟩
    exact ⟨j, hj, he, d, hd, AgreeBelow.symm hsame, by simp [he, hdj]⟩

/-- The last branch is 0 exactly where no device comes after. -/
theorem LastBranch.eq_zero_iff {e : RomId} (h : LastBranch devices e L) : L = 0 ↔ ∀ d ∈ devices, ¬ idBefore e d := by
  have hnone : L = 0 ↔ ¬ ∃ j < 64, BranchUp devices e j := by
    obtain ⟨hle, hcases⟩ := h
    constructor
    · rintro rfl ⟨j, hj, hup⟩
      exact absurd (hle j hj hup) (by omega)
    · intro hno
      rcases hcases with hL | ⟨j, hj, hup, -⟩
      · exact hL
      · exact absurd ⟨j, hj, hup⟩ hno
  rw [hnone, exists_branchUp_iff]
  push Not
  rfl

/-- The search state is that of a pass: fresh, or after the device `path` with its last branch in LAST_DISCREPANCY. -/
def OnPath (devices : List RomId) (L : Nat) (path : RomId) : Prop :=
  L = 0 ∨ path ∈ devices ∧ LastBranch devices path L

/-- The devices such a pass has still to find. -/
def ToCome (devices : List RomId) (L : Nat) (path d : RomId) : Prop := d ∈ devices ∧ (L = 0 ∨ idBefore path d)

theorem LoopFinds.lastBranch (h : LoopFinds devices L path 0 0 run) : LastBranch devices run.srom run.lastZero := by
  refine ⟨fun j hj => h.branches_le j j.zero_le hj, ?_⟩
  rcases h.lastZero_cases with hz | ⟨j, -, hj, hup, hz⟩
  · exact .inl hz
  · exact .inr ⟨j, hj, hup, hz⟩

/-- Where LAST_DISCREPANCY is a branch of a device `path`, the search follows `path` up to there and takes the 1. -/
theorem LoopFinds.follows_path {l : Nat} (h : LoopFinds devices (l + 1) path 0 0 run) (hpath : path ∈ devices)
    (hl : l < 64) (hup : BranchUp devices path l) : AgreeBelow l run.srom path ∧ arrayBit run.srom l = true := by
  have hagree : AgreeBelow l run.srom path := by
    intro j hj
    induction j using Nat.strong_induction_on with
    | _ j ih =>
      by_contra hne
      have hbranch : Branch devices run.srom j :=
        ⟨path, hpath, fun i hi => (ih i hi (hi.trans hj)).symm, Ne.symm hne⟩
      have hbit := h.direction j j.zero_le (hj.trans hl) hbranch
      rw [if_pos (by omega)] at hbit
      exact hne hbit
  refine ⟨hagree, by_contra fun hzero => ?_⟩
  rw [Bool.not_eq_true] at hzero
  obtain ⟨hpathbit, x, hx, hsame, hxbit⟩ := hup
  have hbranch : Branch devices run.srom l :=
    ⟨x, hx, hsame.trans hagree.symm, by rwa [hzero, ← hpathbit]⟩
  have hbit := h.direction l l.zero_le hl hbranch
  simp [hzero] at hbit

/-- A device before the one found differs from it first at a branch where R164 chose the 1. -/
theorem LoopFinds.chose_one {d : RomId} (h : LoopFinds devices L path 0 0 run) (hd : d ∈ devices)
    (hbefore : idBefore d run.srom) :
    ∃ m < 64, AgreeBelow m d run.srom ∧ arrayBit d m = false ∧ arrayBit run.srom m = true ∧
      (if m + 1 < L then arrayBit path m else decide (m + 1 = L)) = true := by
  obtain ⟨m, hm, hsame, hdm, hone⟩ := hbefore
  have hbranch : Branch devices run.srom m := ⟨d, hd, hsame, by simp [hdm, hone]⟩
  exact ⟨m, hm, hsame, hdm, hone, (h.direction m m.zero_le hm hbranch).symm.trans hone⟩

/-- Of the devices after `path`, none is before the one found: it would differ from it at `path`'s last branch or below,
and so not come after `path`. -/
theorem LoopFinds.not_idBefore_of_path {l : Nat} {d : RomId} (h : LoopFinds devices (l + 1) path 0 0 run)
    (hagree : AgreeBelow l run.srom path) (hlast : LastBranch devices path (l + 1)) (hd : d ∈ devices)
    (hafter : idBefore path d) : ¬ idBefore d run.srom := by
  intro hbefore
  obtain ⟨m, hm, hsame, hdm, hone, hchoice⟩ := h.chose_one hd hbefore
  rcases lt_trichotomy m l with hml | rfl | hml
  · have hpath : arrayBit path m = true := (hagree m hml).symm.trans hone
    exact idBefore_asymm hafter ⟨m, hm, hsame.trans (hagree.mono hml.le), hdm, hpath⟩
  · obtain ⟨k, hk, hsame', hpk, hdk⟩ := hafter
    have hmk : m < k := by
      by_contra hkm
      rcases (not_lt.mp hkm).eq_or_lt with rfl | hlt
      · simp [hdm] at hdk
      · simp [hsame.trans hagree k hlt, hpk] at hdk
    have hle := hlast.1 k hk ⟨hpk, d, hd, AgreeBelow.symm hsame', by simp [hpk, hdk]⟩
    omega
  · rw [if_neg (by omega)] at hchoice
    exact absurd (of_decide_eq_true hchoice) (by omega)

/-- The device found is to come, and none to come is before it. -/
theorem LoopFinds.next (h : LoopFinds devices L path 0 0 run) (hpath : OnPath devices L path) :
    ToCome devices L path run.srom ∧ ∀ d, ToCome devices L path d → ¬ idBefore d run.srom := by
  cases L with
  | zero =>
    refine ⟨⟨h.mem, .inl rfl⟩, fun d hd hbefore => ?_⟩
    obtain ⟨m, -, -, -, -, hchoice⟩ := h.chose_one hd.1 hbefore
    simp at hchoice
  | succ l =>
    obtain ⟨hmem, hlast⟩ := hpath.resolve_left (Nat.succ_ne_zero l)
    obtain ⟨j, hj, hup, hlj⟩ := hlast.2.resolve_left (Nat.succ_ne_zero l)
    obtain rfl : l = j := Nat.succ_injective hlj
    obtain ⟨hagree, hone⟩ := h.follows_path hmem hj hup
    refine ⟨⟨h.mem, .inr ⟨l, hj, hagree.symm, hup.1, hone⟩⟩, fun d hd => ?_⟩
    exact h.not_idBefore_of_path hagree hlast hd.1 (hd.2.resolve_left (Nat.succ_ne_zero l))

end Next

/-! ### A SRCH_NEXT on the reference population -/

/-- The history of `t` extends that of `s` by events in which, from phase `p` on, every answer is the population's. -/
def AnswersFrom (devices : List RomId) (p : Phase) (s t : State) : Prop :=
  ∃ events, t.hist = s.hist ++ events ∧ (follow devices p events).isSome = true

/-- The prelude's event is none of the population's. -/
theorem AnswersFrom.of_prelude {devices : List RomId} {p : Phase} {s t : State} {events : List BusEvent}
    (h : AnswersFrom devices p s t) (ht : t.hist = (afterPrelude s).hist ++ events) :
    (follow devices p events).isSome = true := by
  obtain ⟨all, hall, hsome⟩ := h
  cases hl : s.line with
  | released =>
    rw [afterPrelude_of_released hl, hall, List.append_cancel_left_eq] at ht
    exact ht ▸ hsome
  | spu =>
    rw [afterPrelude_of_spu hl, releaseSpu_hist, hall, List.append_assoc, List.append_cancel_left_eq] at ht
    rw [ht] at hsome
    exact hsome

/-- A pulse is answered with presence where there is a device, and a new command begins. -/
theorem follow_reset {devices : List RomId} (hne : devices ≠ []) {p : Phase} {b : Bool} {events : List BusEvent}
    (h : (follow devices p (.reset b :: events)).isSome = true) :
    b = true ∧ (follow devices (.commandByte []) events).isSome = true := by
  have hpresent : (!devices.isEmpty) = true := by simpa using hne
  cases b with
  | false => simp [follow, ReferenceBus.next, hpresent] at h
  | true => exact ⟨rfl, by simpa [follow, ReferenceBus.next, hpresent] using h⟩

theorem searchOutcome_hist (ok : Bool) (s : State) : (searchOutcome ok s).hist = s.hist := by
  rcases searchOutcome_cases ok s with h | ⟨-, -, h⟩ <;> rw [h] <;> rfl

/-- A SRCH_NEXT ended in `t` with the device that the loop's run found (R165, R166). -/
structure FoundBy (run : SearchRun) (t : State) : Prop where
  found : t.found = true
  rom : t.rom = run.srom
  srom : t.srom = run.srom
  lastDiscrepancy : t.lastDiscrepancy = run.lastZero
  lastDevice : t.lastDevice = decide (run.lastZero = 0)

theorem foundBy_searchOutcome {run : SearchRun} (hok : run.ok = true) (hfamily : byteAt run.srom 0 ≠ 0x00#8)
    (s : State) : FoundBy run (searchOutcome run.ok (afterLoop run s)) := by
  have hfound : searchOutcome run.ok (afterLoop run s) = complete (searchFound (afterLoop run s)) :=
    if_neg (not_or.mpr ⟨by simp [hok], hfamily⟩)
  rw [hfound]
  exact ⟨rfl, rfl, rfl, if_pos hok, congrArg (· && decide (run.lastZero = 0)) hok⟩

/-- On the population a SRCH_NEXT that sends a pulse ends with the device its loop finds. -/
theorem searchEffect_finds {devices : List RomId} {p : Phase} {s : State} (hne : devices ≠ [])
    (hfamily : ∀ d ∈ devices, byteAt d 0 ≠ 0x00#8) (hd : s.lastDevice = false)
    (hbus : AnswersFrom devices p s (searchEffect s)) :
    LoopFinds devices s.lastDiscrepancy s.srom 0 0 (searchRun s) ∧ FoundBy (searchRun s) (searchEffect s) := by
  cases h0 : s.answer 0 with
  | false =>
    have hhist : (searchEffect s).hist = (afterPrelude s).hist ++ [.reset false] := by
      rw [searchEffect_of_absence hd h0, searchOutcome_hist]
    exact absurd (follow_reset hne (hbus.of_prelude hhist)).1 Bool.false_ne_true
  | true =>
    have heffect := searchEffect_of_presence hd h0
    have hhist : (searchEffect s).hist =
        (afterPrelude s).hist ++ (.reset true :: (writeEvents [0xF0#8] ++ (searchRun s).events)) := by
      rw [heffect, searchOutcome_hist, afterLoop, afterSearchByte]
      simp
    have hloop := (follow_reset hne (hbus.of_prelude hhist)).2
    rw [follow_searchByte] at hloop
    have hactive : ActiveAt devices 0 s.srom devices := ⟨hne, fun x => by simp [AgreeBelow]⟩
    have hfinds : LoopFinds devices s.lastDiscrepancy s.srom 0 0 (searchRun s) :=
      searchLoop_finds rfl hactive fun _ => hloop
    exact ⟨hfinds, heffect ▸ foundBy_searchOutcome hfinds.ok (hfamily _ hfinds.mem) _⟩

theorem callSrchNext_of_ready {s : State} (h : Ready s) : callSrchNext s = searchEffect s := by
  rw [callSrchNext, exec_srchNext h]
  rfl

/-- `answersAs` of the events since `s`. -/
theorem answersFrom_of_answersAs {devices : List RomId} {s t : State} (hextends : ∃ events, t.hist = s.hist ++ events)
    (h : answersAs devices (t.hist.drop s.hist.length) = true) : AnswersFrom devices .quiet s t := by
  obtain ⟨events, hevents⟩ := hextends
  refine ⟨events, hevents, ?_⟩
  rwa [hevents, List.drop_left] at h

theorem searchEffect_historyLeads {s : State} (h : Ready s) : HistoryLeads s (searchEffect s) :=
  (historyLeads_keptByAgents s).exec_keeps h rfl (exec_srchNext h) (.refl s)

theorem HistoryLeads.exists_events {s t : State} (h : HistoryLeads s t) : ∃ events, t.hist = s.hist ++ events :=
  h.imp fun _ => And.left

/-- Settles O36: with presence answered, the loop finds a device. -/
theorem searchOnReferenceBusFindsADevice : Obligations.SearchOnReferenceBusFindsADevice := by
  intro devices s t hne hfamily h hd ht hbus
  cases (exec_srchNext h).symm.trans ht
  have hanswers := answersFrom_of_answersAs (searchEffect_historyLeads h).exists_events hbus
  obtain ⟨hfinds, hend⟩ := searchEffect_finds hne hfamily hd hanswers
  exact ⟨hend.found, hend.rom ▸ hfinds.mem⟩

/-! ### A pass (R171) -/

/-- `s` stands in a pass over `devices` that has still to find `rest`, in this order. -/
structure InPass (devices rest : List RomId) (s : State) : Prop where
  ready : Ready s
  onPath : OnPath devices s.lastDiscrepancy s.srom
  lastDevice_iff : s.lastDevice = true ↔ rest = []
  sorted : rest.Pairwise idBefore
  mem_iff : rest ≠ [] → ∀ d, d ∈ rest ↔ ToCome devices s.lastDiscrepancy s.srom d

section Pass

variable {devices rest : List RomId} {e : RomId} {p : Phase} {s : State}

/-- After the first device to come the others are those after it. -/
theorem InPass.mem_tail_iff (h : InPass devices (e :: rest) s) (d : RomId) :
    d ∈ rest ↔ d ∈ devices ∧ idBefore e d := by
  have hmem := h.mem_iff (List.cons_ne_nil e rest)
  constructor
  · intro hd
    exact ⟨((hmem d).mp (List.mem_cons_of_mem e hd)).1, List.rel_of_pairwise_cons h.sorted hd⟩
  · rintro ⟨hd, hed⟩
    obtain ⟨-, he⟩ := (hmem e).mp List.mem_cons_self
    have hcome : ToCome devices s.lastDiscrepancy s.srom d := ⟨hd, he.imp_right fun he => idBefore_trans he hed⟩
    refine (List.mem_cons.mp ((hmem d).mpr hcome)).resolve_left ?_
    rintro rfl
    exact idBefore_asymm hed hed

/-- The loop finds the first device to come. -/
theorem InPass.srom_eq_head (h : InPass devices (e :: rest) s) {run : SearchRun}
    (hfinds : LoopFinds devices s.lastDiscrepancy s.srom 0 0 run) : run.srom = e := by
  have hmem := h.mem_iff (List.cons_ne_nil e rest)
  obtain ⟨hcome, hleast⟩ := hfinds.next h.onPath
  rcases List.mem_cons.mp ((hmem _).mpr hcome) with he | hlater
  · exact he
  · exact absurd (List.rel_of_pairwise_cons h.sorted hlater) (hleast e ((hmem e).mp List.mem_cons_self))

/-- One search of a pass finds the first device to come and leaves the others. -/
theorem InPass.next (h : InPass devices (e :: rest) s) (hfamily : ∀ d ∈ devices, byteAt d 0 ≠ 0x00#8)
    (hbus : AnswersFrom devices p s (searchEffect s)) :
    (searchEffect s).found = true ∧ (searchEffect s).rom = e ∧ InPass devices rest (searchEffect s) := by
  have hd : s.lastDevice = false := Bool.eq_false_iff.mpr (h.lastDevice_iff.not.mpr (List.cons_ne_nil e rest))
  have hmem : e ∈ devices := ((h.mem_iff (List.cons_ne_nil e rest) e).mp List.mem_cons_self).1
  obtain ⟨hfinds, hend⟩ := searchEffect_finds (List.ne_nil_of_mem hmem) hfamily hd hbus
  have hhead := h.srom_eq_head hfinds
  have hlast : LastBranch devices e (searchRun s).lastZero := hhead ▸ hfinds.lastBranch
  have hnone : (searchRun s).lastZero = 0 ↔ rest = [] := by
    rw [hlast.eq_zero_iff, List.eq_nil_iff_forall_not_mem]
    simp only [h.mem_tail_iff, not_and]
  refine ⟨hend.found, hend.rom.trans hhead, searchEffect_ready h.ready, ?_, ?_, h.sorted.of_cons, fun hrest d => ?_⟩
  · rw [hend.lastDiscrepancy, hend.srom, hhead]
    exact .inr ⟨hmem, hlast⟩
  · rw [hend.lastDevice, decide_eq_true_iff, hnone]
  · rw [hend.lastDiscrepancy, hend.srom, hhead, h.mem_tail_iff, ToCome, or_iff_right (hnone.not.mpr hrest)]

end Pass

theorem AnswersFrom.split {devices : List RomId} {p : Phase} {s t u : State} (h : AnswersFrom devices p s u)
    (hst : ∃ events, t.hist = s.hist ++ events) (htu : ∃ events, u.hist = t.hist ++ events) :
    AnswersFrom devices p s t ∧ ∃ q, AnswersFrom devices q t u := by
  obtain ⟨all, hall, hsome⟩ := h
  obtain ⟨events, ht⟩ := hst
  obtain ⟨events', hu⟩ := htu
  have happend : all = events ++ events' := by
    rw [hu, ht, List.append_assoc, List.append_cancel_left_eq] at hall
    exact hall.symm
  rw [happend, follow_append, Option.isSome_bind] at hsome
  obtain ⟨q, hq, hsome⟩ := (Option.any_eq_true _ _).mp hsome
  exact ⟨⟨events, ht, hq ▸ rfl⟩, q, events', hu, hsome⟩

theorem callsSrchNext_of_ready {s : State} (h : Ready s) (k : Nat) :
    callsSrchNext (k + 1) s = callsSrchNext k (searchEffect s) := by
  rw [callsSrchNext, callSrchNext_of_ready h]

theorem callsSrchNext_historyLeads {s : State} (h : Ready s) (k : Nat) : HistoryLeads s (callsSrchNext k s) := by
  induction k generalizing s with
  | zero => exact .refl s
  | succ k ih =>
    rw [callsSrchNext_of_ready h]
    exact (searchEffect_historyLeads h).trans (ih (searchEffect_ready h))

/-- The searches of a pass find the devices to come, one after the other. -/
theorem InPass.finds {devices rest : List RomId} {p : Phase} {s : State} (h : InPass devices rest s)
    (hfamily : ∀ d ∈ devices, byteAt d 0 ≠ 0x00#8)
    (hbus : AnswersFrom devices p s (callsSrchNext rest.length s)) :
    (∀ k (hk : k < rest.length), (callsSrchNext (k + 1) s).found = true ∧ (callsSrchNext (k + 1) s).rom = rest[k]) ∧
      InPass devices [] (callsSrchNext rest.length s) := by
  induction rest generalizing p s with
  | nil => exact ⟨fun k hk => absurd hk (Nat.not_lt_zero k), h⟩
  | cons e rest ih =>
    have hready := searchEffect_ready h.ready
    rw [List.length_cons, callsSrchNext_of_ready h.ready] at hbus
    obtain ⟨hfirst, q, hothers⟩ := hbus.split (searchEffect_historyLeads h.ready).exists_events
      (callsSrchNext_historyLeads hready rest.length).exists_events
    obtain ⟨hfound, hrom, hpass⟩ := h.next hfamily hfirst
    obtain ⟨hall, hend⟩ := ih hpass hothers
    refine ⟨fun k hk => ?_, (callsSrchNext_of_ready h.ready rest.length).symm ▸ hend⟩
    rw [callsSrchNext_of_ready h.ready]
    cases k with
    | zero => exact ⟨hfound, hrom⟩
    | succ k => exact hall k (Nat.lt_of_succ_lt_succ hk)

theorem callsSrchNext_succ (k : Nat) (s : State) : callsSrchNext (k + 1) s = callSrchNext (callsSrchNext k s) := by
  induction k generalizing s with
  | zero => rfl
  | succ k ih => exact ih (callSrchNext s)

theorem exists_inIdOrder {devices : List RomId} (h : devices.Nodup) :
    ∃ ids : List RomId, ids.Perm devices ∧ ids.Pairwise idBefore := by
  have hperm := List.mergeSort_perm devices fun d e => decide (busKey d ≤ busKey e)
  refine ⟨_, hperm, ?_⟩
  have hle := List.pairwise_mergeSort (le := fun d e => decide (busKey d ≤ busKey e))
    (fun a b c hab hbc => decide_eq_true ((of_decide_eq_true hab).trans (of_decide_eq_true hbc)))
    (fun a b => by simpa using le_total (busKey a) (busKey b)) devices
  refine hle.imp₂ (fun d e hle hne => ?_) (hperm.nodup_iff.mpr h)
  exact (idBefore_iff d e).mpr ((of_decide_eq_true hle).lt_of_ne (busKey_injective.ne hne))

/-- A fresh search state is the beginning of a pass over all devices. -/
theorem inPass_of_fresh {devices ids : List RomId} {s : State} (hne : devices ≠ []) (hperm : ids.Perm devices)
    (hsorted : ids.Pairwise idBefore) (h : Ready s) (hfresh : freshSearch s = true) : InPass devices ids s := by
  obtain ⟨hL, hd⟩ : s.lastDiscrepancy = 0 ∧ s.lastDevice = false := by simpa [freshSearch] using hfresh
  have hsome : ids ≠ [] := fun hnil => hne (List.Perm.eq_nil (hnil ▸ hperm).symm)
  refine ⟨h, .inl hL, by simp [hd, hsome], hsorted, fun _ d => ?_⟩
  rw [hperm.mem_iff, ToCome, and_iff_left (.inl hL)]

/-- On the population, from a fresh search state, a pass gives the devices in the order of their ids. -/
theorem pass_of_fresh {devices : List RomId} {s : State} (hne : devices ≠ []) (hnodup : devices.Nodup)
    (hfamily : ∀ d ∈ devices, byteAt d 0 ≠ 0x00#8) (h : Ready s) (hfresh : freshSearch s = true)
    (hbus : answersAs devices ((callsSrchNext devices.length s).hist.drop s.hist.length) = true) :
    ∃ ids : List RomId, ids.Perm devices ∧ ids.Pairwise idBefore ∧
      (∀ k (hk : k < ids.length), (callsSrchNext (k + 1) s).found = true ∧ (callsSrchNext (k + 1) s).rom = ids[k]) ∧
      InPass devices [] (callsSrchNext devices.length s) := by
  obtain ⟨ids, hperm, hsorted⟩ := exists_inIdOrder hnodup
  have hanswers := answersFrom_of_answersAs (callsSrchNext_historyLeads h devices.length).exists_events hbus
  rw [← hperm.length_eq] at hanswers ⊢
  obtain ⟨hfinds, hend⟩ := (inPass_of_fresh hne hperm hsorted h hfresh).finds hfamily hanswers
  exact ⟨ids, hperm, hsorted, hfinds, hend⟩

/-- With all devices found the next search is `None` (R166). -/
theorem InPass.none {devices : List RomId} {s : State} (h : InPass devices [] s) :
    callSrchNext s = complete (searchNone s) := by
  rw [callSrchNext_of_ready h.ready, searchEffect, if_pos (h.lastDevice_iff.mpr rfl)]
  exact if_pos (.inl rfl)

/-- Settles O37: the ids in order are those of the devices, and after the last one comes `None`. -/
theorem searchPassGivesEachDeviceOnce : Obligations.SearchPassGivesEachDeviceOnce := by
  intro devices s hne hnodup hfamily h hfresh hbus
  obtain ⟨ids, hperm, -, hfinds, hend⟩ := pass_of_fresh hne hnodup hfamily h hfresh hbus
  have hlength := hperm.length_eq
  have hroms : ((List.range devices.length).map fun k => (callsSrchNext (k + 1) s).rom) = ids :=
    List.ext_getElem (by simp [hlength]) fun k _ hk => by simpa using (hfinds k hk).2
  rw [callsSrchNext_succ, hend.none, hroms]
  exact ⟨fun k hk => (hfinds k (hlength ▸ hk)).1, hperm, rfl, rfl⟩

/-- Settles O38: a pass gives the ids in order. -/
theorem searchPassIsInIdOrder : Obligations.SearchPassIsInIdOrder := by
  intro devices s hne hnodup hfamily h hfresh hbus k hk
  obtain ⟨ids, hperm, hsorted, hfinds, -⟩ := pass_of_fresh hne hnodup hfamily h hfresh hbus
  rw [← hperm.length_eq] at hk
  rw [(hfinds k (Nat.lt_of_succ_lt hk)).2, (hfinds (k + 1) hk).2]
  exact List.pairwise_iff_getElem.mp hsorted k (k + 1) _ hk (Nat.lt_succ_self k)

end Sys2Proof.Machine
end

section
/-! The NTP unit (43_ntp.md): the request frame (R190), NTP_START (R193), the timer (R196), the delivery and what it
parses (R197 to R199), and the moves of NTP_STATE (R192). -/

namespace Sys2Proof.Machine

/-! ### The request frame (R190) -/

/-- NTP_TX is no command's target, so a read of it is the frame's word in every state. -/
theorem readOffset_ntpTx (s : State) {k : Nat} (hk : k < 12) : (readOffset (0xC0 + 4 * k) .w32 s).1 =
    if k = 0 then 0xEC0600E3#32 else if k = 3 then 0x34314E31#32 else 0x00000000#32 :=
  (readOffset_singleStep (r := .ntpTx ⟨k, hk⟩) rfl s).trans (packWord_txFrame k hk)

/-- Settles O39: the frame is the table's, and each register its word of the frame. -/
theorem requestFrameIsConstant : Obligations.RequestFrameIsConstant := by
  refine ⟨rfl, fun s => ⟨readOffset_ntpTx s (k := 0) (by decide), readOffset_ntpTx s (k := 3) (by decide),
    fun off h4 hoff => ?_⟩⟩
  have hk : 0xC0 + 4 * ((off - 0xC0) / 4) = off := by omega
  rw [← hk, readOffset_ntpTx s (by omega), if_neg (by omega), if_neg (by omega)]

/-! ### NTP_START (R193) -/

/-- Settles O40: the command is one micro-operation. -/
theorem ntpStartOpensTheWindow : Obligations.NtpStartOpensTheWindow := fun _ hr =>
  ⟨exec_of_busy _ hr, fun hb => ⟨Vector.replicate Config.ntpFrameBytes 0#8,
    exec_of_complete_at_once ⟨hr, hb⟩ rfl, fun i _ => byteAt_replicate i⟩⟩

/-! ### The timer (R196) -/

theorem ntpTimerStep_of_not_awaiting {s : State} (h : s.ntpState ≠ .awaiting) : ntpTimerStep s = s := by
  simp [ntpTimerStep, h]

section Window

variable {s : State} (hr : s.inReset = false) (hn : s.ntpState = .awaiting)
include hr hn

theorem ntpTimerStep_of_awaiting : ntpTimerStep s = { s with
    ntpElapsed := s.ntpElapsed + 1#16
    ntpState := if s.ntpElapsed + 1#16 = 1500#16 then .timedOut else .awaiting } := by
  simp [ntpTimerStep, hr, hn, Config.ntpTimeoutMs, BitVec.toNat_eq]

variable (h0 : s.ntpElapsed = 0#16)
include h0

/-- The first 1499 ticks of a window are only counted. -/
theorem repeat_ntpTimerStep_open {k : Nat} (hk : k < 1500) :
    Nat.repeat ntpTimerStep k s = { s with ntpElapsed := BitVec.ofNat 16 k } := by
  induction k with
  | zero => rw [← h0]; rfl
  | succ k ih =>
    have hcount : BitVec.ofNat 16 k + 1#16 = BitVec.ofNat 16 (k + 1) := BitVec.ofNat_add_ofNat _ _
    have hopen : BitVec.ofNat 16 (k + 1) ≠ 1500#16 := by bv_omega
    rw [Nat.repeat, ih (by omega)]
    refine (ntpTimerStep_of_awaiting (s := { s with ntpElapsed := BitVec.ofNat 16 k }) hr hn).trans ?_
    simp only [hcount, if_neg hopen, ← hn]

/-- The 1500th tick ends the window, and there is no tick after it. -/
theorem repeat_ntpTimerStep_over {k : Nat} (hk : 1500 ≤ k) :
    Nat.repeat ntpTimerStep k s = { s with ntpElapsed := 1500#16, ntpState := .timedOut } := by
  induction k, hk using Nat.le_induction with
  | base =>
    rw [Nat.repeat, repeat_ntpTimerStep_open hr hn h0 (k := 1499) (by decide)]
    exact ntpTimerStep_of_awaiting (s := { s with ntpElapsed := 1499#16 }) hr hn
  | succ k _ ih =>
    rw [Nat.repeat, ih]
    exact ntpTimerStep_of_not_awaiting nofun

end Window

/-- Settles O41: the single tick, and the ticks of a window counted by induction. -/
theorem windowEndsAtTheTick1500 : Obligations.WindowEndsAtTheTick1500 :=
  ⟨fun _ => ntpTimerStep_of_awaiting, fun _ => ntpTimerStep_of_not_awaiting,
    fun _ _ hr hn h0 => ⟨repeat_ntpTimerStep_open hr hn h0, repeat_ntpTimerStep_over hr hn h0⟩⟩

/-! ### The delivery (R197) -/

/-- Settles O42: a write of NTP_RXLEN is a delivery, parsed or not. -/
theorem deliveryIsParsedOnlyInTheWindow : Obligations.DeliveryIsParsedOnlyInTheWindow := by
  intro v s
  rw [show writeOffset 0x30 .w32 v s = _ from writeOffset_reg .ntpRxLen v s]
  rcases deliver_cases (v.extractLsb' 0 16) s with ⟨hn, hlen, hparsed⟩ | ⟨hstale, hkept⟩
  · exact ⟨fun _ _ => hparsed, fun hstale => hstale.elim (absurd hn) (by omega)⟩
  · exact ⟨fun hn hlen => hstale.elim (absurd hn) (by omega), fun _ => hkept⟩

/-! ### The seconds field (R72, R198) -/

/-- A byte appended below a number. -/
theorem toNat_append_byte {w : Nat} (x : BitVec w) (b : Byte) : (x ++ b).toNat = x.toNat * 2 ^ 8 + b.toNat := by
  rw [BitVec.toNat_append, ← Nat.shiftLeft_add_eq_or_of_lt b.isLt, Nat.shiftLeft_eq]

/-- Byte `j` of a big-endian value: it is the packed word of the four bytes in the other order (R198). -/
theorem extractLsb'_be32 {n : Nat} (x : Vector Byte n) (i : Nat) {j : Nat} (h : j < 4) :
    (be32 x i).extractLsb' (8 * j) 8 = byteAt x (i + (3 - j)) := by
  have hreverse : be32 x i = packWord #v[byteAt x (i + 3), byteAt x (i + 2), byteAt x (i + 1), byteAt x i] 0 := rfl
  rw [hreverse, extractLsb'_packWord _ _ h]
  interval_cases j <;> rfl

/-- Settles O43: the field's value byte by byte, and NTP_RX10 is the same four bytes packed the other way round. -/
theorem secondsFieldIsBigEndian : Obligations.SecondsFieldIsBigEndian := by
  intro s
  refine ⟨?_, fun j hj => ?_⟩
  · simp only [replySeconds, be32, toNat_append_byte, Config.ntpSecondsOffset, Nat.reduceAdd]
    omega
  · exact (extractLsb'_be32 s.rx 40 hj).trans (extractLsb'_packWord s.rx 40 (by omega)).symm

/-! ### The Unix seconds (R199) -/

/-- Settles O44: subtraction on 32 bits, below and above 2208988800. -/
theorem unixSecondsAreExactOrWrap : Obligations.UnixSecondsAreExactOrWrap := by
  intro raw
  unfold unixSeconds Config.ntpEpochOffset
  constructor <;> intro h <;> bv_omega

/-! ### The moves of NTP_STATE (R192) -/

/-- An NTP_START just completed: the running one, or the one the program's next statement runs whole (log entry 3). -/
def NtpStarted (s t : State) : Prop :=
  t.ntpState = .awaiting ∧ t.ntpElapsed = 0#16 ∧ t.seq = .idle ∧
    ((∃ k, s.seq = .running .ntpStart k) ∨
      ∃ w rest, s.program = .runCommand w :: rest ∧ decode w = some .ntpStart)

/-- The tick to 1500 ended the window (R196). -/
def WindowTimedOut (s t : State) : Prop :=
  s.ntpState = .awaiting ∧ t.ntpState = .timedOut ∧ s.ntpElapsed = 1499#16 ∧ t.ntpElapsed = 1500#16

/-- A delivery was accepted (R197). -/
def ReplyAccepted (s t : State) : Prop :=
  s.ntpState = .awaiting ∧ t.ntpState = .done ∧ 48 ≤ t.ntpRxLen.toNat

/-- The reset input is active, and NTP_STATE is IDLE (70_reset_and_hazards.md R250). -/
def HeldInReset (t : State) : Prop := t.ntpState = .idle ∧ t.inReset = true

/-- NTP_STATE stays, or moves as R192 lists. -/
def NtpMoves (s t : State) : Prop :=
  t.ntpState ≠ s.ntpState → NtpStarted s t ∨ WindowTimedOut s t ∨ ReplyAccepted s t ∨ HeldInReset t

theorem NtpMoves.of_same {s t : State} (h : t.ntpState = s.ntpState) : NtpMoves s t := fun hne => absurd h hne

theorem raiseError_ntpState (code : ErrorCode) (s : State) : (raiseError code s).ntpState = s.ntpState := by
  rw [raiseError_eq]

theorem readOffset_ntpState (off : Nat) (width : AccessWidth) (s : State) :
    (readOffset off width s).2.ntpState = s.ntpState := by
  rcases readOffset_cases off width s with ⟨-, h⟩ | ⟨-, h⟩ | ⟨-, h⟩ <;> rw [h]
  exact raiseError_ntpState _ s

/-- Of the host's writes only a delivery moves NTP_STATE. -/
theorem WriteEffect.ntpState {v : Word} {s t : State} (h : WriteEffect v s t) :
    t.ntpState = s.ntpState ∨ ReplyAccepted s t := by
  cases h with
  | error code => exact .inl (raiseError_ntpState code s)
  | delivery =>
    rcases deliver_cases (v.extractLsb' 0 16) s with ⟨hn, hlen, h⟩ | ⟨-, h⟩ <;> rw [h]
    · exact .inr ⟨hn, rfl, hlen⟩
    · exact .inl rfl
  | _ => exact .inl rfl

/-- Running a command whole moves NTP_STATE only where it is NTP_START. -/
theorem exec_ntpState {i : Instr} {s t : State} (h : Ready s) (ht : exec i s = .next t) :
    t.ntpState = s.ntpState ∨
      (i = .ntpStart ∧ t.ntpState = .awaiting ∧ t.ntpElapsed = 0#16 ∧ t.seq = .idle) := by
  by_cases hi : i = .ntpStart
  · subst hi
    cases (exec_of_complete_at_once h rfl).symm.trans ht
    exact .inr ⟨rfl, rfl, rfl, rfl⟩
  · cases (exec_of_ready i h).symm.trans ht
    refine .inl (runMicro_induction (P := fun u => u.ntpState = s.ntpState) (fun u _ k _ hu => ?_) _ rfl)
    exact (microOf_ntp i k u hi).1.trans hu

theorem hostRead_ntpState {addr : Nat} {width : AccessWidth} {s t : State} (h : hostRead addr width s = .next t) :
    t.ntpState = s.ntpState := by
  unfold hostRead at h
  split at h
  · cases h; rfl
  · split at h
    · cases h
    · cases h; exact readOffset_ntpState _ width s

theorem hostWrite_ntpState {addr : Nat} {width : AccessWidth} {v : Word} {s t : State}
    (h : hostWrite addr width v s = .next t) : t.ntpState = s.ntpState ∨ ReplyAccepted s t := by
  unfold hostWrite at h
  split at h
  · cases h; exact .inl rfl
  · split at h
    · cases h
    · cases h; exact (writeOffset_effect _ width v s).ntpState

theorem hostPoll_ntpState {again : HostStmt} {finished : Bool} {s t : State}
    (h : hostPoll again finished s = .next t) : t.ntpState = s.ntpState := by
  unfold hostPoll at h
  split at h <;> cases h
  rfl

theorem runCommandWord_ntpState {w : Word} {s t : State} (h : runCommandWord w s = .next t) :
    t.ntpState = s.ntpState ∨
      (decode w = some .ntpStart ∧ t.ntpState = .awaiting ∧ t.ntpElapsed = 0#16 ∧ t.seq = .idle) := by
  unfold runCommandWord at h
  split at h
  · cases h
  next hr =>
    split at h
    · cases h; exact .inl (raiseError_ntpState _ s)
    next hb =>
      split at h
      · cases h; exact .inl (raiseError_ntpState _ s)
      next i hd =>
        refine (exec_ntpState ⟨by simpa using hr, by simpa using hb⟩ h).imp_right fun ⟨hi, hopened⟩ => ?_
        exact ⟨hi ▸ hd, hopened⟩

theorem hostStep_ntpMoves {s t : State} (h : hostStep s = .next t) : NtpMoves s t := by
  unfold hostStep at h
  split at h
  · cases h; exact .of_same rfl
  next stmt rest hprog =>
    cases stmt with
    | rd addr width => exact .of_same (hostRead_ntpState h :)
    | wr addr width v =>
      rcases hostWrite_ntpState h with hsame | hdone
      · exact .of_same hsame
      · exact fun _ => .inr (.inr (.inl hdone))
    | waitIdle => exact .of_same (hostPoll_ntpState h :)
    | waitNtp => exact .of_same (hostPoll_ntpState h :)
    | runCommand w =>
      rcases runCommandWord_ntpState h with hsame | ⟨hd, hn, helapsed, hseq⟩
      · exact .of_same hsame
      · exact fun _ => .inl ⟨hn, helapsed, hseq, .inr ⟨w, rest, hprog, hd⟩⟩

/-- Of the micro-operations only NTP_START's moves NTP_STATE. -/
theorem sequencerStep_ntpMoves (s : State) : NtpMoves s (sequencerStep s) := by
  rcases sequencerStep_cases s with ⟨-, h⟩ | ⟨-, -, h⟩ | ⟨i, k, -, hq, h⟩ <;> rw [h]
  · exact .of_same rfl
  · exact .of_same rfl
  · by_cases hi : i = .ntpStart
    · subst hi
      exact fun _ => .inl ⟨rfl, rfl, rfl, .inl ⟨k, hq⟩⟩
    · exact .of_same (microOf_ntp i k s hi).1

theorem ntpTimerStep_ntpMoves (s : State) : NtpMoves s (ntpTimerStep s) := by
  rcases ntpTimerStep_cases s with ⟨-, hn, h⟩ | ⟨-, h⟩ <;> rw [h]
  · by_cases hover : (s.ntpElapsed + 1#16).toNat = 1500
    · exact fun _ => .inr (.inl ⟨hn, if_pos hover, by bv_omega, BitVec.eq_of_toNat_eq hover⟩)
    · exact .of_same ((if_neg hover).trans hn.symm)
  · exact .of_same rfl

theorem resetPinStep_ntpMoves (level : Bool) (s : State) : NtpMoves s (resetPinStep level s) := by
  unfold resetPinStep
  split
  · exact fun _ => .inr (.inr (.inr ⟨rfl, rfl⟩))
  · exact .of_same rfl

theorem turnStep_ntpMoves {turn : Turn} {s t : State} (h : turnStep turn s = .next t) : NtpMoves s t := by
  cases turn with
  | host => exact hostStep_ntpMoves h
  | sequencer => cases h; exact sequencerStep_ntpMoves s
  | ntpTimer => cases h; exact ntpTimerStep_ntpMoves s
  | resetPin level => cases h; exact resetPinStep_ntpMoves level s

/-- A step rests, or is some agent's turn with at most the schedule changed before it. -/
theorem step_turn {s t : State} (h : step s = .next t) :
    t = s ∨ ∃ turn turns, turnStep turn { s with schedule := turns } = .next t := by
  unfold step at h
  split at h
  next turn turns _ => exact .inr ⟨turn, turns, h⟩
  · split at h
    next turn _ => exact .inr ⟨turn, s.schedule, h⟩
    · cases h; exact .inl rfl

/-- Settles O45: each agent's turn moves NTP_STATE only as listed. -/
theorem ntpStateMovesOnlyAsListed : Obligations.NtpStateMovesOnlyAsListed := by
  intro s t h
  rcases step_turn h with rfl | ⟨turn, turns, h⟩
  · exact absurd rfl
  · exact (turnStep_ntpMoves h :)

end Sys2Proof.Machine
end

section
/-! The hand-over of a datagram (43_ntp.md R195): the host's statements store the words the datagram reaches, one step
each, and then deliver its length. -/

namespace Sys2Proof.Machine

/-! ### The words of RX -/

/-- The words of RX that a datagram reaches. -/
def reachedWords (datagram : List Byte) : List (Fin 12) :=
  (List.finRange 12).filter fun k => decide (4 * k.val < datagram.length)

/-- RX with the words `ks` stored as they stand in `y`. -/
def storeWords (y : Vector Byte Config.ntpFrameBytes) :
    List (Fin 12) → Vector Byte Config.ntpFrameBytes → Vector Byte Config.ntpFrameBytes
  | [], x => x
  | k :: ks, x => storeWords y ks (unpackWord x (4 * k.val) (packWord y (4 * k.val)))

theorem byteAt_storeWords (y : Vector Byte Config.ntpFrameBytes) (ks : List (Fin 12))
    (x : Vector Byte Config.ntpFrameBytes) {k : Fin 12} {i : Nat} (hi : i / 4 = k.val) :
    byteAt (storeWords y ks x) i = if k ∈ ks then byteAt y i else byteAt x i := by
  induction ks generalizing x with
  | nil => rfl
  | cons l ks ih =>
    have hend : 4 * l.val + 4 ≤ 48 := by omega
    rw [storeWords, ih, byteAt_unpackWord_packWord x y (4 * l.val) i hend]
    have hword : (4 * l.val ≤ i ∧ i < 4 * l.val + 4) ↔ k = l := by rw [Fin.ext_iff]; omega
    by_cases hl : k = l <;> simp [hword, hl]

/-- The words a datagram reaches hold all that it changes in RX. -/
theorem storeWords_rxWith (rx : Vector Byte Config.ntpFrameBytes) (datagram : List Byte) :
    storeWords (HostProgram.rxWith rx datagram) (reachedWords datagram) rx = HostProgram.rxWith rx datagram := by
  refine eq_of_byteAt fun i hi => ?_
  have hi : i < 48 := hi
  rw [byteAt_storeWords _ _ _ (k := ⟨i / 4, by omega⟩) rfl]
  split
  · rfl
  next hbeyond =>
    rw [reachedWords, HostProgram.mem_handOver_words] at hbeyond
    rw [HostProgram.byteAt_rxWith rx datagram hi, dif_neg (by simp only at hbeyond; omega)]

/-! ### The host's statements -/

section Statements

variable (rest : List HostStmt) (turns : List Turn)

/-- `wr` of a register is one step, its admitted write (30_encoding.md R99). -/
theorem step_wr (r : Reg) (v : Word) {s : State} (hr : s.inReset = false) :
    step { s with program := HostProgram.wr r v :: rest, schedule := .host :: turns } =
      .next (writeReg r v { s with program := rest, schedule := turns }) := by
  rw [step_hostStmt rfl rfl, ← writeOffset_reg]
  exact hostWrite_window (s := { s with program := rest, schedule := turns }) hr (offset_lt r) .w32 v

/-- Storing words of RX takes one step a word. -/
theorem core_run_storeWords (y : Vector Byte Config.ntpFrameBytes) (ks : List (Fin 12)) (n : Nat) {s : State}
    (hr : s.inReset = false) :
    Sys2Proof.core.run (ks.length + n) { s with
        program := ks.map (fun k => HostProgram.wr (.ntpRx k) (packWord y (4 * k.val))) ++ rest
        schedule := List.replicate ks.length .host ++ turns } =
      Sys2Proof.core.run n { s with rx := storeWords y ks s.rx, program := rest, schedule := turns } := by
  induction ks generalizing s with
  | nil => rw [List.length_nil, Nat.zero_add]; rfl
  | cons k ks ih =>
    have hstep := step_wr (ks.map (fun k => HostProgram.wr (.ntpRx k) (packWord y (4 * k.val))) ++ rest)
      (List.replicate ks.length .host ++ turns) (.ntpRx k) (packWord y (4 * k.val)) hr
    rw [List.length_cons, Nat.add_right_comm]
    exact (core_run_next _ hstep).trans
      (ih (s := { s with rx := unpackWord s.rx (4 * k.val) (packWord y (4 * k.val)) }) hr)

/-- `DELIVER len` is one step, the delivery. -/
theorem step_deliver (len : BitVec 16) {s : State} (hr : s.inReset = false) :
    step { s with program := HostProgram.deliver len :: rest, schedule := .host :: turns } =
      .next (deliver len { s with program := rest, schedule := turns }) := by
  have hlen : (len.setWidth 32).extractLsb' 0 16 = len := by
    rw [BitVec.extractLsb'_setWidth_of_le (by decide), BitVec.extractLsb'_eq_self]
  rw [HostProgram.deliver, step_wr rest turns .ntpRxLen (len.setWidth 32) hr, writeReg, hlen]

end Statements

/-- Settles O59: the words stored are the datagram's with the bytes beyond its end, and the last statement delivers its
length. -/
theorem handOverStoresTheDatagram : Obligations.HandOverStoresTheDatagram := by
  intro datagram s rest turns hr
  refine ⟨HostProgram.rxWith s.rx datagram, ?_, fun i hi => HostProgram.byteAt_rxWith s.rx datagram hi⟩
  have hlength : (HostProgram.handOver s.rx datagram).length = (reachedWords datagram).length + 1 := by
    simp [HostProgram.handOver, reachedWords]
  have hwords := core_run_storeWords (HostProgram.deliver (BitVec.ofNat 16 datagram.length) :: rest) (.host :: turns)
    (HostProgram.rxWith s.rx datagram) (reachedWords datagram) 1 hr
  rw [storeWords_rxWith] at hwords
  rw [hlength, HostProgram.handOver, List.append_assoc, List.replicate_succ', List.append_assoc]
  exact hwords.trans
    (core_run_next 0 (step_deliver rest turns _ (s := { s with rx := HostProgram.rxWith s.rx datagram }) hr))

end Sys2Proof.Machine
end

section
/-! The errors (60_exceptions.md): what raising one changes (R222), that one host access raises at most one, in the
order of R223, and that the Sequencer and the NtpTimer raise none (R224). -/

namespace Sys2Proof.Machine

/-! ### Raising an error (R222) -/

/-- Settles O8: only ERROR changes, and STATUS shows none of it. -/
theorem raisingKeepsTheFirstError : Obligations.RaisingKeepsTheFirstError := by
  intro code s
  have heq := raiseError_eq code s
  exact ⟨heq, by rw [heq]; rfl⟩

/-! ### ERROR left as it was -/

/-- ERROR's CODE and MORE are the same in `s` and `t`. -/
def SameError (s t : State) : Prop := t.errCode = s.errCode ∧ t.errMore = s.errMore

theorem SameError.refl (s : State) : SameError s s := ⟨rfl, rfl⟩

theorem SameOutside.sameError {s t : State} (h : SameOutside s t) : SameError s t := ⟨h.errCode, h.errMore⟩

theorem deliver_sameError (len : BitVec 16) (s : State) : SameError s (deliver len s) := by
  rcases deliver_cases len s with ⟨-, -, h⟩ | ⟨-, h⟩ <;> rw [h] <;> exact .refl s

theorem ntpTimerStep_sameError (s : State) : SameError s (ntpTimerStep s) := by
  rcases ntpTimerStep_cases s with ⟨-, -, h⟩ | ⟨-, h⟩ <;> rw [h] <;> exact .refl s

theorem sequencerStep_sameError (s : State) : SameError s (sequencerStep s) := by
  rcases sequencerStep_cases s with ⟨-, h⟩ | ⟨-, -, h⟩ | ⟨i, k, -, -, h⟩ <;> rw [h]
  · exact .refl s
  · exact .refl s
  · exact (microOf_sameOutside i k s).sameError

/-- An admitted read raises no error, whether its value is specified or free (20_memory.md R68). -/
theorem readOffset_sameError {off : Nat} {width : AccessWidth} (h : admitted off width = true) (s : State) :
    SameError s (readOffset off width s).2 := by
  rcases readOffset_cases off width s with ⟨-, hs⟩ | ⟨-, hs⟩ | ⟨hrefused, -⟩
  · rw [hs]; exact .refl s
  · rw [hs]; exact .refl s
  · exact absurd h (by simp [hrefused])

/-- A write of a register leaves ERROR alone unless it is the clear of ERROR, one that BUSY refuses, or an illegal word
to CMD (10_state.md R21, 20_memory.md R65 to R67). -/
theorem writeReg_sameError {r : Reg} {v : Word} {s : State} (hclear : r ≠ .error)
    (hbusy : r.lockedWhileBusy = true → s.busy = false) (hlegal : r = .cmd → decode v ≠ none) :
    SameError s (writeReg r v s) := by
  cases r with
  | error => exact absurd rfl hclear
  | cmd =>
    obtain ⟨i, hi⟩ := Option.ne_none_iff_exists'.mp (hlegal rfl)
    rw [writeReg, issue_of_legal (hbusy rfl) hi]
    exact .refl s
  | rom k => rw [writeReg_rom_of_not_busy k v (hbusy rfl)]; exact .refl s
  | buf k => rw [writeReg_buf_of_not_busy k v (hbusy rfl)]; exact .refl s
  | ntpRxLen => exact deliver_sameError _ s
  | _ => exact .refl s

/-! ### One error per access, in order (R223) -/

/-- Only offsets of the window hold a register. -/
theorem lt_of_regAt {off : Nat} {r : Reg} (h : regAt off = some r) : off < 256 := by
  by_contra hge
  have hnone : regAt off = none := by simp (disch := omega) only [regAt, if_neg]
  exact nomatch hnone.symm.trans h

/-- Where the registers that BUSY locks stand in the map (20_memory.md R67). -/
theorem offset_of_lockedWhileBusy {r : Reg} (h : r.lockedWhileBusy = true) :
    r.offset = 0x00 ∨ r.offset = 0x10 ∨ r.offset = 0x14 ∨ (0x40 ≤ r.offset ∧ r.offset ≤ 0x4C) := by
  cases r with
  | cmd => exact .inl rfl
  | rom | buf => simp only [Reg.offset]; omega
  | _ => exact nomatch h

/-- Settles O12: a refused access is not admitted; of the admitted ones BUSY refuses seven offsets, an illegal word is
refused by command issue, and every other access but the clear of ERROR raises nothing. -/
theorem oneErrorPerAccessInOrder : Obligations.OneErrorPerAccessInOrder := by
  intro off width v s busyReg bad
  have admitted_of_not_bad (h : ¬ bad) : off % 4 = 0 ∧ width = .w32 := by simpa [bad] using h
  refine ⟨fun h => ?_, fun h hb hoff => ?_, fun h hb hoff hv => ?_, fun h herror hbusy hlegal => ?_, fun h => ?_⟩
  · obtain ⟨hwrite, hread⟩ := badAccessIsRefused off width v s h
    exact ⟨hwrite, congrArg Prod.snd hread⟩
  · obtain ⟨h4, rfl⟩ := admitted_of_not_bad h
    exact busyRefusesCommandRomAndBufWrites off v s hb (by omega)
  · obtain ⟨-, rfl⟩ := admitted_of_not_bad h
    subst hoff
    exact (writeOffset_reg .cmd v s).trans (issue_of_illegal hb hv)
  · obtain ⟨h4, rfl⟩ := admitted_of_not_bad h
    cases hr : regAt off with
    | none => rw [writeOffset_reserved h4 hr]; exact SameError.refl s
    | some r =>
      obtain rfl := offset_of_regAt h4 (lt_of_regAt hr) hr
      rw [writeOffset_reg]
      refine writeReg_sameError (fun hreg => herror (hreg ▸ rfl)) (fun hlocked => ?_) fun hreg hv => ?_
      · exact Bool.eq_false_iff.mpr fun hb => hbusy ⟨hb, offset_of_lockedWhileBusy hlocked⟩
      · exact hlegal ⟨hreg ▸ rfl, hv⟩
  · exact readOffset_sameError ((admitted_iff off width).mpr (admitted_of_not_bad h)) s

/-! ### The agents that raise none (R224) -/

/-- Settles O13: no micro-operation of any command touches ERROR, and no tick does. -/
theorem onlyHostStepsRaiseErrors : Obligations.OnlyHostStepsRaiseErrors := by
  intro s
  obtain ⟨hcode, hmore⟩ := sequencerStep_sameError s
  exact ⟨hcode, hmore, ntpTimerStep_sameError s⟩

end Sys2Proof.Machine
end

section
/-! The reset input (70_reset_and_hazards.md R250), and the bound of a command's life (R252, R271), which the commands'
whole runs give. -/

namespace Sys2Proof.Machine

/-! ### Driving the reset input (R250) -/

theorem resetPinStep_active (s : State) : resetPinStep Config.resetActive s = resetBlock s := if_pos rfl

theorem resetPinStep_released (s : State) : resetPinStep (!Config.resetActive) s = { s with inReset := false } :=
  if_neg (Bool.not_ne_self _)

section InReset

variable {s : State} (hr : s.inReset = true)
include hr

theorem sequencerStep_of_inReset : sequencerStep s = s := by simp [sequencerStep, hr]

theorem ntpTimerStep_of_inReset : ntpTimerStep s = s := by simp [ntpTimerStep, hr]

theorem hostRead_of_inReset {off : Nat} (hoff : off < 256) (width : AccessWidth) :
    hostRead (Config.pBase + off) width s = .fault .hostAccessInReset := by simp [hostRead, hoff, hr]

theorem hostWrite_of_inReset {off : Nat} (hoff : off < 256) (width : AccessWidth) (v : Word) :
    hostWrite (Config.pBase + off) width v s = .fault .hostAccessInReset := by simp [hostWrite, hoff, hr]

theorem hostPoll_of_inReset (again : HostStmt) (finished : Bool) :
    hostPoll again finished s = .fault .hostAccessInReset := if_pos hr

theorem runCommandWord_of_inReset (w : Word) : runCommandWord w s = .fault .hostAccessInReset := if_pos hr

theorem exec_of_inReset (i : Instr) : exec i s = .fault .hostAccessInReset := by
  rw [exec_eq]
  exact if_pos hr

end InReset

/-- Settles O47: the active level resets the block, the other level only ends the reset, and neither of the two agents
steps in it. -/
theorem resetInputRestoresEveryResetValue : Obligations.ResetInputRestoresEveryResetValue := fun s =>
  ⟨congrArg _ (resetPinStep_active s), congrArg _ (resetPinStep_released (resetBlock s)),
    congrArg _ (sequencerStep_of_inReset (s := resetBlock s) rfl),
    congrArg _ (ntpTimerStep_of_inReset (s := resetBlock s) rfl)⟩

/-- Settles O48: each form of access looks at the reset input before anything else. -/
theorem hostAccessInResetIsStuck : Obligations.HostAccessInResetIsStuck := fun _ _ width v hr hoff =>
  ⟨hostRead_of_inReset hr hoff width, hostWrite_of_inReset hr hoff width v, hostPoll_of_inReset hr _ _,
    hostPoll_of_inReset hr _ _, runCommandWord_of_inReset hr v, exec_of_inReset hr⟩

/-! ### A command's life is bounded (R252, R271) -/

/-- OW_READ of 16 bytes takes 129 steps; SRCH_NEXT, with 202, takes the most. -/
theorem maxSteps_le {i : Instr} (hwf : i.wf = true) : maxSteps i ≤ 202 := by
  cases i with
  | owRead n =>
    have hn : 1 ≤ n ∧ n ≤ 16 := of_decide_eq_true hwf
    simp only [maxSteps]
    omega
  | _ => simp [maxSteps]

/-- Every command, run whole from a state that can take it, is complete at the end of its run. -/
theorem exec_completes {i : Instr} {s : State} (hwf : i.wf = true) (h : Ready s) :
    ∃ t, exec i s = .next t ∧ t.seq = .idle ∧ t.busy = false := by
  obtain ⟨hr, hb⟩ := h
  cases i with
  | owReset =>
    obtain ⟨-, hrun⟩ := owResetSamplesPresence s hr
    exact ⟨_, hrun hb, rfl, rfl⟩
  | owSelect =>
    obtain ⟨-, hrun⟩ := owSelectWritesMatchRomAndTheId s hr
    exact ⟨_, hrun hb, rfl, rfl⟩
  | owWrite b spu =>
    obtain ⟨-, hplain, hhold⟩ := owWriteSendsTheByteAndTakesTheHold b s hr
    cases spu with
    | false => exact ⟨_, hplain hb, rfl, rfl⟩
    | true => exact ⟨_, hhold hb, rfl, rfl⟩
  | owRead n =>
    obtain ⟨hn, hn'⟩ : 1 ≤ n ∧ n ≤ 16 := of_decide_eq_true hwf
    obtain ⟨-, hrun⟩ := owReadStoresTheAnswers n s hr
    obtain ⟨buf', hrun, -⟩ := hrun hb hn hn'
    exact ⟨_, hrun, rfl, rfl⟩
  | srchNext =>
    obtain ⟨t, hrun, hbusy, hseq, -⟩ := srchNextEndsWithAddressOrNone s ⟨hr, hb⟩
    exact ⟨t, hrun, hseq, hbusy⟩
  | srchReset | crc | ntpStart => exact ⟨_, exec_of_complete_at_once ⟨hr, hb⟩ rfl, rfl, rfl⟩

/-- Settles O55: a command's life is the Sequencer steps of its whole run, and accepting it looks at nothing that could
keep the block from taking it. -/
theorem everyCommandCompletesWithinItsBound : Obligations.EveryCommandCompletesWithinItsBound := by
  intro i s hwf hr
  have hready : Ready { s with busy := false } := ⟨hr, rfl⟩
  obtain ⟨t, hrun, hseq, hbusy⟩ := exec_completes hwf hready
  rw [exec_eq_repeat_sequencerStep i hready] at hrun
  obtain rfl := Host.Outcome.next.inj hrun
  exact ⟨maxSteps_le hwf, hseq, hbusy⟩

end Sys2Proof.Machine
end

section
/-! The end of a run (70_reset_and_hazards.md R273): the host's program gets shorter only by its statements, so its last
statement, a waiting loop, returns last, and in the state it waits for. -/

namespace Sys2Proof.Machine

/-! ### What a host statement does to the host's program -/

theorem readOffset_program (off : Nat) (width : AccessWidth) (s : State) :
    (readOffset off width s).2.program = s.program := by
  rcases readOffset_cases off width s with ⟨-, h⟩ | ⟨-, h⟩ | ⟨-, h⟩ <;> rw [h]
  rw [raiseError_eq]

theorem WriteEffect.program {v : Word} {s t : State} (h : WriteEffect v s t) : t.program = s.program := by
  cases h with
  | error code => rw [raiseError_eq]
  | delivery => rcases deliver_cases (v.extractLsb' 0 16) s with ⟨-, -, h⟩ | ⟨-, h⟩ <;> rw [h]
  | _ => rfl

theorem exec_program {i : Instr} {s t : State} (h : exec i s = .next t) : t.program = s.program := by
  rw [exec_eq] at h
  rcases issueAndRun_cases i (maxSteps i) (microOf i) s with ⟨-, hs⟩ | ⟨-, -, hs⟩ | ⟨-, -, hs⟩ <;>
    cases hs.symm.trans h
  · rw [raiseError_eq]
  · exact runMicro_induction (P := fun u => u.program = s.program)
      (fun u _ k _ hu => (microOf_sameOutside i k u).program.trans hu) _ rfl

theorem hostRead_program {addr : Nat} {width : AccessWidth} {s t : State} (h : hostRead addr width s = .next t) :
    t.program = s.program := by
  unfold hostRead at h
  split at h
  · cases h; rfl
  · split at h <;> cases h
    exact readOffset_program _ width s

theorem hostWrite_program {addr : Nat} {width : AccessWidth} {v : Word} {s t : State}
    (h : hostWrite addr width v s = .next t) : t.program = s.program := by
  unfold hostWrite at h
  split at h
  · cases h; rfl
  · split at h <;> cases h
    exact (writeOffset_effect _ width v s).program

theorem runCommandWord_program {w : Word} {s t : State} (h : runCommandWord w s = .next t) :
    t.program = s.program := by
  unfold runCommandWord at h
  split at h
  · cases h
  · split at h
    · cases h; rw [raiseError_eq]
    · split at h
      · cases h; rw [raiseError_eq]
      · exact exec_program h

/-- A round of a waiting loop is taken only while the reset input is released. -/
theorem hostPoll_next {again : HostStmt} {finished : Bool} {s t : State} (h : hostPoll again finished s = .next t) :
    s.inReset = false ∧ t = { s with
      readLog := s.readLog ++ [statusWord s]
      program := if finished then s.program else again :: s.program } := by
  rcases Bool.eq_false_or_eq_true s.inReset with hr | hr
  · cases (hostPoll_of_inReset hr again finished).symm.trans h
  · exact ⟨hr, Host.Outcome.next.inj (h.symm.trans (hostPoll_released hr again finished))⟩

/-- A statement is done, or, a waiting loop, stays the next one. -/
theorem hostStmtStep_program {stmt : HostStmt} {s t : State} (h : hostStmtStep stmt s = .next t) :
    t.program = s.program ∨ t.program = stmt :: s.program := by
  have hpoll (finished : Bool) (h : hostPoll stmt finished s = .next t) :
      t.program = s.program ∨ t.program = stmt :: s.program := by
    obtain ⟨-, rfl⟩ := hostPoll_next h
    cases finished with
    | false => exact .inr rfl
    | true => exact .inl rfl
  cases stmt with
  | rd addr width => exact .inl (hostRead_program h)
  | wr addr width v => exact .inl (hostWrite_program h)
  | waitIdle => exact hpoll _ h
  | waitNtp => exact hpoll _ h
  | runCommand w => exact .inl (runCommandWord_program h)

/-! ### What a step does to the host's program -/

/-- `t` has the host's program of `s`, and no command was started. -/
def Bystander (s t : State) : Prop := t.program = s.program ∧ (s.busy = false → t.busy = false)

theorem Bystander.refl (s : State) : Bystander s s := ⟨rfl, id⟩

theorem sequencerStep_bystander (s : State) : Bystander s (sequencerStep s) := by
  rcases sequencerStep_cases s with ⟨-, h⟩ | ⟨-, -, h⟩ | ⟨i, k, -, hq, h⟩ <;> rw [h]
  · exact .refl s
  · exact .refl s
  · refine ⟨(microOf_sameOutside i k s).program, fun hb => ?_⟩
    rcases microOf_seq i k s hq with ⟨-, hdone⟩ | ⟨-, -, hsame⟩
    · exact hdone
    · exact hsame.trans hb

theorem ntpTimerStep_bystander (s : State) : Bystander s (ntpTimerStep s) := by
  rcases ntpTimerStep_cases s with ⟨-, -, h⟩ | ⟨-, h⟩ <;> rw [h] <;> exact .refl s

theorem resetPinStep_bystander (level : Bool) (s : State) : Bystander s (resetPinStep level s) := by
  unfold resetPinStep
  split
  · exact ⟨rfl, fun _ => rfl⟩
  · exact .refl s

/-- A step is the host's next statement, taken off the program, or leaves the program alone and starts no command. -/
theorem step_stmt {s t : State} (h : step s = .next t) :
    Bystander s t ∨ ∃ stmt rest turns, s.program = stmt :: rest ∧
      hostStmtStep stmt { s with program := rest, schedule := turns } = .next t := by
  rcases step_turn h with rfl | ⟨turn, turns, h⟩
  · exact .inl (.refl t)
  cases turn with
  | sequencer => cases h; exact .inl (sequencerStep_bystander { s with schedule := turns })
  | ntpTimer => cases h; exact .inl (ntpTimerStep_bystander { s with schedule := turns })
  | resetPin level => cases h; exact .inl (resetPinStep_bystander level { s with schedule := turns })
  | host =>
    simp only [turnStep, hostStep] at h
    split at h
    · cases h; exact .inl (.refl s)
    next stmt rest hprog => exact .inr ⟨stmt, rest, turns, hprog, h⟩

/-! ### The two waits at the end of a run -/

/-- A WAIT_IDLE is still the program's last statement, or it returned last of all. -/
def EndsInWaitIdle (s : State) : Prop :=
  (∃ prog, s.program = prog ++ [.waitIdle]) ∨ (s.program = [] ∧ s.busy = false ∧ s.inReset = false)

theorem endsInWaitIdle_step {s t : State} (h : EndsInWaitIdle s) (hs : step s = .next t) (hprog : s.program ≠ []) :
    EndsInWaitIdle t := by
  obtain ⟨prog, hwait⟩ := h.resolve_right fun hdone => hprog hdone.1
  rcases step_stmt hs with ⟨hsame, -⟩ | ⟨stmt, rest, turns, hnext, hs⟩
  · exact .inl ⟨prog, hsame.trans hwait⟩
  cases prog with
  | nil =>
    obtain ⟨rfl, rfl⟩ := List.cons.inj (hnext.symm.trans hwait)
    obtain ⟨hr, rfl⟩ := hostPoll_next hs
    rcases Bool.eq_false_or_eq_true s.busy with hb | hb
    · exact .inl ⟨[], by simp [hb]⟩
    · exact .inr ⟨by simp [hb], hb, hr⟩
  | cons first prog =>
    obtain ⟨rfl, rfl⟩ := List.cons.inj (hnext.symm.trans hwait)
    rcases hostStmtStep_program hs with hdone | hagain
    · exact .inl ⟨prog, hdone⟩
    · exact .inl ⟨stmt :: prog, hagain⟩

theorem ntpOver_iff (s : State) : ntpOver s = true ↔ s.ntpState = .done ∨ s.ntpState = .timedOut := by
  simp [ntpOver]

/-- No command runs, and a WAIT_NTP is all of the program, or it returned. -/
def EndsInWaitNtp (s : State) : Prop :=
  s.busy = false ∧ (s.program = [.waitNtp] ∨
    (s.program = [] ∧ s.inReset = false ∧ (s.ntpState = .done ∨ s.ntpState = .timedOut)))

theorem endsInWaitNtp_step {s t : State} (h : EndsInWaitNtp s) (hs : step s = .next t) (hprog : s.program ≠ []) :
    EndsInWaitNtp t := by
  obtain ⟨hb, hwait⟩ := h
  replace hwait := hwait.resolve_right fun hdone => hprog hdone.1
  rcases step_stmt hs with ⟨hsame, hidle⟩ | ⟨stmt, rest, turns, hnext, hs⟩
  · exact ⟨hidle hb, .inl (hsame.trans hwait)⟩
  obtain ⟨rfl, rfl⟩ := List.cons.inj (hnext.symm.trans hwait)
  obtain ⟨hr, rfl⟩ := hostPoll_next hs
  refine ⟨hb, ?_⟩
  split
  next hover => exact .inr ⟨rfl, hr, (ntpOver_iff _).mp hover⟩
  next => exact .inl rfl

/-! ### The run of a program to its end (R273) -/

section EndOfRun

open HostProgram (runUntilDone runUntilDone_of_done runUntilDone_next runUntilDone_done startsExchange endState)

/-- A program that is not done and whose run ends takes a step. -/
theorem exists_step_of_runUntilDone {n : Nat} {started : Bool} {s : State} {r : Nat × Bool × State}
    (hprog : s.program ≠ []) (h : runUntilDone n started s = some r) :
    ∃ m u, m < n ∧ step s = .next u ∧ runUntilDone m (started || startsExchange s) u = some r := by
  cases n with
  | zero => simp [runUntilDone, hprog] at h
  | succ m =>
    cases hs : step s with
    | next u => exact ⟨m, u, m.lt_succ_self, rfl, runUntilDone_next m started hprog hs ▸ h⟩
    | fault r => simp [runUntilDone, hprog, hs] at h
    | refused r => simp [runUntilDone, hprog, hs] at h

/-- What each step before the program is done keeps holds where the run ends. -/
theorem runUntilDone_induction {P : Bool → State → Prop}
    (hstep : ∀ {started s u}, P started s → step s = .next u → s.program ≠ [] →
      P (started || startsExchange s) u)
    {n left : Nat} {started ended : Bool} {s t : State}
    (h : runUntilDone n started s = some (left, ended, t)) (hp : P started s) : P ended t := by
  induction n using Nat.strong_induction_on generalizing started s with
  | _ n ih =>
    by_cases hprog : s.program = []
    · cases (runUntilDone_of_done n started hprog).symm.trans h
      exact hp
    · obtain ⟨m, u, hm, hs, h⟩ := exists_step_of_runUntilDone hprog h
      exact ih m hm h (hstep hp hs hprog)

/-- An exchange that the run's first step started is on record where the run ends. -/
theorem ended_of_startsExchange {n left : Nat} {started ended : Bool} {s t : State}
    (h : runUntilDone n started s = some (left, ended, t)) (hprog : s.program ≠ [])
    (hexchange : startsExchange s = true) : ended = true := by
  obtain ⟨m, u, -, -, h⟩ := exists_step_of_runUntilDone hprog h
  exact runUntilDone_induction (P := fun started _ => started = true) (fun hp _ _ => by simp [hp]) h
    (by simp [hexchange])

/-- The run of a program that ends in a WAIT_IDLE ends with the block idle. -/
theorem runUntilDone_waitIdle {n left : Nat} {started ended : Bool} {s t : State} {prog : List HostStmt}
    (hprog : s.program = prog ++ [.waitIdle]) (h : runUntilDone n started s = some (left, ended, t)) :
    t.program = [] ∧ t.busy = false ∧ t.inReset = false := by
  have hend := runUntilDone_induction (P := fun _ => EndsInWaitIdle) endsInWaitIdle_step h (.inl ⟨prog, hprog⟩)
  exact hend.resolve_left fun ⟨_, hwait⟩ => by simp [runUntilDone_done h] at hwait

/-- The run of a WAIT_NTP alone, no command running, ends after the NTP window. -/
theorem runUntilDone_waitNtp {n left : Nat} {started ended : Bool} {s t : State} (hb : s.busy = false)
    (hprog : s.program = [.waitNtp]) (h : runUntilDone n started s = some (left, ended, t)) :
    t.program = [] ∧ t.busy = false ∧ t.inReset = false ∧ (t.ntpState = .done ∨ t.ntpState = .timedOut) := by
  obtain ⟨hb, hend⟩ := runUntilDone_induction (P := fun _ => EndsInWaitNtp) endsInWaitNtp_step h ⟨hb, .inl hprog⟩
  obtain ⟨hdone, hover⟩ := hend.resolve_left fun hwait => by simp [runUntilDone_done h] at hwait
  exact ⟨hdone, hb, hover⟩

/-- The end of a run is that of the program with its WAIT_IDLE, or, where that started an exchange, of a WAIT_NTP after
it. -/
theorem endState_cases {prog : List HostStmt} {n : Nat} {s t : State} (h : endState prog n s = some t) :
    ∃ left ended u,
      runUntilDone n false { s with program := prog ++ [.waitIdle] } = some (left, ended, u) ∧
      ((ended = false ∧ u = t) ∨ ∃ left' ended',
        runUntilDone left true { u with program := [.waitNtp] } = some (left', ended', t)) := by
  unfold endState at h
  split at h
  · cases h
  next left u hrun => exact ⟨left, false, u, hrun, .inl ⟨rfl, Option.some.inj h⟩⟩
  next left u hrun =>
    obtain ⟨⟨left', ended', t'⟩, hwait, rfl⟩ := Option.map_eq_some_iff.mp h
    exact ⟨left, true, u, hrun, .inr ⟨left', ended', hwait⟩⟩

/-- Settles O60: the appended WAIT_IDLE returns last of the program, so the block is idle where it is done; a WAIT_NTP
run after it starts no command, and returns only in DONE or TIMEDOUT. -/
theorem runEndsWithTheBlockIdle : Obligations.RunEndsWithTheBlockIdle := by
  intro prog n s t h
  obtain ⟨left, ended, u, hrun, hend⟩ := endState_cases h
  obtain ⟨hdone, hb, hr⟩ := runUntilDone_waitIdle rfl hrun
  rcases hend with ⟨hnone, rfl⟩ | ⟨left', ended', hwait⟩
  · have hprog : prog ++ [HostStmt.waitIdle] ≠ [] := by simp
    refine ⟨hdone, hb, hr, fun hexchange => ?_⟩
    cases hnone.symm.trans (ended_of_startsExchange hrun hprog hexchange)
  · obtain ⟨hdone, hb, hr, hover⟩ := runUntilDone_waitNtp (s := { u with program := [.waitNtp] }) hb rfl hwait
    exact ⟨hdone, hb, hr, fun _ => hover⟩

end EndOfRun

end Sys2Proof.Machine
end
